-- ==== Sys2Proof/Word.lean ====
section
/-! DEFINITION. Bytes (00_scope.md R8): a byte is 8 bits, bit 7 the most significant ("top") bit. -/

namespace Sys2Proof

/-- A byte, R8. -/
abbrev Byte := BitVec 8

/-- `b[7]`, R8: the bit that marks a frame boundary on the bus (R90). -/
def top (b : Byte) : Bool := b.getMsbD 0

/-- `b[6:0]` as an unsigned number of seven bits, R8. -/
def low7 (b : Byte) : BitVec 7 := b.extractLsb' 0 7

/-- `XOR(i = a .. b-1) S[i]` over a list of bytes, R8: 0x00 for none. -/
def xorAll : List Byte → Byte
  | [] => 0
  | b :: bs => b ^^^ xorAll bs

end Sys2Proof
end

