-- ==== Sys2Proof/Config.lean ====
section
/-! DEFINITION. The implementation parameters (00_scope.md R6), their constraints (R7), and the reference
instantiation REF (R14). A parameter the spec calls OPEN is a field here, never a constant of the model: the
machine's state carries the configuration (log entry 1), so a statement about every state is a statement about
every instantiation. -/

namespace Sys2Proof

/-- The two pedals sharing the bus (R12). -/
inductive Device where
  | ftsw
  | exp
  deriving DecidableEq, Repr

/-- The four recognised inbound command kinds (R92). The fifth, `Unknown`, of R108 is `none` of
`Option Kind`. -/
inductive Kind where
  | init
  | btn
  | pos
  | dbtn
  deriving DecidableEq, Repr

/-- The ten button edges (44_payload_events.md R250): `ftswDown k` and `ftswUp k` are `FtswBtn<k+1>Down` and
`FtswBtn<k+1>Up`; `expDown` and `expUp` are `ExpBtnDown` and `ExpBtnUp`. -/
inductive Edge where
  | ftswDown (k : Fin 4)
  | ftswUp (k : Fin 4)
  | expDown
  | expUp
  deriving DecidableEq, Repr

/-- The number domain `NUM` (10_state.md R29): `none` is `BLANK`. -/
abbrev DisplayNum := Option (Fin 1000)

/-- Who drives the drain and the refresh pass (45_encoder_refresh_api.md R300, R304: "A model may take either
scheduling"; log entry 21). -/
inductive Scheduling where
  /-- The caller's `poll` drains, tests the gate once and pops: R300. -/
  | software
  /-- The engine tests the gate continuously, and `poll` is `Pop()`: R304. -/
  | hardware
  deriving DecidableEq, Repr

/-- The parameters of R6, and the scheduling of R304. `FB_SIZE = 7` and `TB_SIZE = 9` are the lengths of the state's vectors; `ACK` is
`Config.ack`. -/
structure Config where
  cmdInit : Byte
  cmdBtn : Byte
  cmdPos : Byte
  cmdDbtn : Byte
  lenInit : Fin 8
  lenBtn : Fin 8
  lenPos : Fin 8
  lenDbtn : Fin 8
  error : Byte
  idFtsw : Byte
  idExp : Byte
  errThreshold : Nat
  tEcho : Nat
  tAck : Nat
  queueCap : Nat
  quiesceMs : Nat
  cmdOutLed : Byte
  cmdOutDig : Byte
  ledRegFtsw : Byte
  ledRegExp : Byte
  digRegH : Byte
  digRegT : Byte
  digRegO : Byte
  seg7 : Vector Byte 10
  segBlank : Byte
  lzSuppress : Bool
  btnTable : List (BitVec 16 × Edge)
  /-- `COMBO` offset of a BTN frame, R94: the index of the upper byte. -/
  offBtn : Fin 6
  offPosHi : Fin 7
  offPosLo : Fin 7
  offDbtnA : Fin 6
  offDbtnB : Fin 6
  resetLowMs : Nat
  baud : Nat
  sched : Scheduling
  deriving DecidableEq, Repr

/-- `ACK = CMD_INIT`, R6 and R7(c). -/
def Config.ack (c : Config) : Byte := c.cmdInit

/-- `CMD_<kind>`, R6. -/
def Config.cmd (c : Config) : Kind → Byte
  | .init => c.cmdInit
  | .btn => c.cmdBtn
  | .pos => c.cmdPos
  | .dbtn => c.cmdDbtn

/-- `LEN(kind)` (30_encoding.md R92): the length-decode table. -/
def Config.len (c : Config) : Kind → Fin 8
  | .init => c.lenInit
  | .btn => c.lenBtn
  | .pos => c.lenPos
  | .dbtn => c.lenDbtn

/-- `IDOF(d)` (30_encoding.md R107). -/
def Config.idOf (c : Config) : Device → Byte
  | .ftsw => c.idFtsw
  | .exp => c.idExp

/-- `LED_REG[d]`, R6. -/
def Config.ledReg (c : Config) : Device → Byte
  | .ftsw => c.ledRegFtsw
  | .exp => c.ledRegExp

/-- Whether the bytes `k .. k+w-1` are payload of a frame of kind `kd`, whose payload is bytes 2 to `LEN - 2`
(R13). -/
abbrev Config.inPayload (c : Config) (kd : Kind) (k w : Nat) : Prop :=
  2 ≤ k ∧ k + w + 1 ≤ (c.len kd).val

/-- The constraints every instantiation must meet: R7 (a) to (g) with the domains of R6, the constraints R254
puts on the button table, and that every payload offset lies in its frame's payload (R13, R21; DEDUCED, log
entry 5). -/
structure Config.Valid (c : Config) : Prop where
  cmdTop : ∀ k, top (c.cmd k) = true
  cmdInj : ∀ j k, c.cmd j = c.cmd k → j = k
  errorNeAck : c.error ≠ c.ack
  idTop : ∀ d, top (c.idOf d) = false
  idInj : c.idFtsw ≠ c.idExp
  lenLow : ∀ k, 4 ≤ (c.len k).val
  lenInj : ∀ j k, c.len j = c.len k → j = k
  thresholdPos : 1 ≤ c.errThreshold
  tEchoPos : 1 ≤ c.tEcho
  tAckPos : 1 ≤ c.tAck
  queueCapPos : 1 ≤ c.queueCap
  resetLowPos : 1 ≤ c.resetLowMs
  btnKeys : (c.btnTable.map Prod.fst).Nodup
  btnEdges : (c.btnTable.map Prod.snd).Nodup
  btn7D : ((0x7D7D : BitVec 16), Edge.ftswDown 2) ∈ c.btnTable
  btn7F : ((0x7F7F : BitVec 16), Edge.ftswUp 0) ∈ c.btnTable
  btn00 : (0x0000 : BitVec 16) ∉ c.btnTable.map Prod.fst
  offBtnIn : c.inPayload .btn c.offBtn 2
  offPosHiIn : c.inPayload .pos c.offPosHi 1
  offPosLoIn : c.inPayload .pos c.offPosLo 1
  offDbtnAIn : c.inPayload .dbtn c.offDbtnA 2
  offDbtnBIn : c.inPayload .dbtn c.offDbtnB 2

/-- A segment table in which no two digits look alike and no digit looks blank. The spec does not ask for it
(`SEG7` and `SEG_BLANK` are OPEN); only reading a DIG frame back needs it. -/
structure Config.SegDistinct (c : Config) : Prop where
  digits : c.seg7.toList.Nodup
  blank : c.segBlank ∉ c.seg7.toList

/-- The reference instantiation REF: the REF column of R6, the tables of R14 and R254. Synthetic: no value of it
is a claim about the pedals (R14). `baud` has no REF value; 0 stands for it (DESIGN CHOICE, log entry 1), and the
scheduling is the document's own (R300; log entry 21). -/
def Config.ref : Config where
  cmdInit := 0x81
  cmdBtn := 0x82
  cmdPos := 0x83
  cmdDbtn := 0x84
  lenInit := 4
  lenBtn := 5
  lenPos := 6
  lenDbtn := 7
  error := 0x8E
  idFtsw := 0x01
  idExp := 0x02
  errThreshold := 5
  tEcho := 1
  tAck := 2
  queueCap := 10
  quiesceMs := 0
  cmdOutLed := 0x90
  cmdOutDig := 0x91
  ledRegFtsw := 0x10
  ledRegExp := 0x10
  digRegH := 0x20
  digRegT := 0x22
  digRegO := 0x24
  seg7 := #v[0x3F, 0x06, 0x5B, 0x4F, 0x66, 0x6D, 0x7D, 0x07, 0xFF, 0xEF]
  segBlank := 0x00
  lzSuppress := true
  btnTable :=
    [(0x7E7E, .ftswDown 0), (0x7F7F, .ftswUp 0), (0x7B7B, .ftswDown 1), (0x7B7F, .ftswUp 1),
     (0x7D7D, .ftswDown 2), (0x7D7F, .ftswUp 2), (0x7777, .ftswDown 3), (0x777F, .ftswUp 3),
     (0x6F6F, .expDown), (0x6F7F, .expUp)]
  offBtn := 2
  offPosHi := 2
  offPosLo := 3
  offDbtnA := 2
  offDbtnB := 4
  resetLowMs := 10
  baud := 0
  sched := .software

end Sys2Proof
end

