-- ==== Sys2Proof/Syntax.lean ====
section
/-! DEFINITION. The operations of the engine as syntax: one constructor per row of spec/opcode_table.json
(30_encoding.md R113), the caller requests, and the reading contexts that decide what a byte string stands for
(R114, and the table's direction and selection columns). -/

namespace Sys2Proof

/-- The caller requests of R10. `setDisplayNumber` takes every natural number (R292, 93 U16). -/
inductive Request where
  | setLed (d : Device) (k : Fin 8)
  | clearLed (d : Device) (k : Fin 8)
  | setDisplayNumber (v : Nat)
  | clearDisplayNumber
  | poll
  | reset
  deriving DecidableEq, Repr

/-- The operations, one per row of the operation table. The four frames carry the identifier and the payload
bytes 2 to n-2 (R91); their checksum byte is computed. `badsum k body` is a frame of kind `k` whose bytes 1 to
n-1, checksum byte included, do not XOR to zero. -/
inductive Instr where
  | init (id : Byte) (payload : List Byte)
  | btn (id : Byte) (payload : List Byte)
  | pos (id : Byte) (payload : List Byte)
  | dbtn (id : Byte) (payload : List Byte)
  | unknownCmd (b : Byte)
  | cmdStart (k : Kind)
  | data (b : Byte)
  | stray (b : Byte)
  | badsum (k : Kind) (body : List Byte)
  | replyAck
  | replyErr
  | rplEcho (b : Byte)
  | led (d : Device) (m8 : Byte)
  | dig (v : DisplayNum)
  | echoOk (b : Byte)
  | echoLast (b : Byte)
  | echoMismatch (b : Byte)
  | respAck
  | respError
  | respOther (b : Byte)
  | tick
  | setLed (d : Device) (k : Fin 8)
  | clearLed (d : Device) (k : Fin 8)
  | setDisplayNumber (v : Nat)
  | clearDisplayNumber
  | poll
  | reset
  deriving DecidableEq, Repr

/-- The operation a caller request is. -/
def Request.instr : Request → Instr
  | .setLed d k => .setLed d k
  | .clearLed d k => .clearLed d k
  | .setDisplayNumber v => .setDisplayNumber v
  | .clearDisplayNumber => .clearDisplayNumber
  | .poll => .poll
  | .reset => .reset

/-- Where bytes are read: the same byte stands for different operations in different places (R114; R98: `ACK`
and `CMD_INIT` "are told apart only by where the byte arrives"). -/
inductive Ctx where
  /-- The framer, one byte: any byte with bit 7 set, or a byte with bit 7 clear while the framer is Idle. -/
  | idle
  /-- The framer Accumulating, one byte that does not complete the frame. -/
  | more
  /-- The framer Accumulating, the bytes of the frame together with the one that completes it. -/
  | frame
  /-- The reply byte the engine sends (R98). -/
  | reply
  /-- Phase `TX_RPL`, one byte (R153). -/
  | rpl
  /-- Phase `TX_ECHO`, one byte: `expect` is `TB[tidx]`, `last` whether it is the checksum byte. -/
  | echo (expect : Byte) (last : Bool)
  /-- Phase `TX_ACKW`, one byte (R98). -/
  | ackw
  /-- A frame the engine sends in a refresh pass (R99). -/
  | pass
  /-- An input event with no wire bytes: a tick or a caller request. -/
  | event
  deriving DecidableEq, Repr

end Sys2Proof
end

