-- ==== Sys2Proof/Machine/Operands.lean ====
section
/-! DEFINITION. Operand assembly and the pure functions of 30_encoding.md: byte classes, command and identifier
decode, checksum, position, button combination, the address quirk, the segment patterns, and the outbound frame
bodies built from them. -/

namespace Sys2Proof

/-- `CMDKIND(b)`, R108: `none` is `Unknown`. -/
def Config.cmdKind (c : Config) (b : Byte) : Option Kind :=
  if b = c.cmdInit then some .init
  else if b = c.cmdBtn then some .btn
  else if b = c.cmdPos then some .pos
  else if b = c.cmdDbtn then some .dbtn
  else none

/-- `DEVOF(id)`, R107. -/
def Config.devOf (c : Config) (id : Byte) : Option Device :=
  if id = c.idFtsw then some .ftsw
  else if id = c.idExp then some .exp
  else none

/-- `CKS(S)`, R97: the exclusive-or of every byte but the first. -/
def cks (bs : List Byte) : Byte := xorAll bs.tail

/-- A frame body followed by its trailing checksum (R97, R181). -/
def withCks (body : List Byte) : List Byte := body ++ [cks body]

/-- `POS14`, R102, of the two position bytes. -/
def pos14 (high low : Byte) : BitVec 14 :=
  ((low7 high).setWidth 14 <<< 7) ||| (low7 low).setWidth 14

/-- `COMBO`, R103, of two neighbouring payload bytes: the lower index is the upper half. -/
def combo (upper lower : Byte) : BitVec 16 :=
  (upper.setWidth 16 <<< 8) ||| lower.setWidth 16

/-- `BTN_TABLE`, R254: `none` is an unmapped combination. -/
def Config.button (c : Config) (x : BitVec 16) : Option Edge :=
  c.btnTable.lookup x

/-- The address of `SPLIT(base, v)`, R104: bit 7 of the value selects the next register address. The addition is
on 8 bits (93 U15: it wraps at 0xFF). -/
def splitAddr (base v : Byte) : Byte := if top v then base + 1 else base

/-- The data byte of `SPLIT(base, v)`, R104: the seven low bits. -/
def splitData (v : Byte) : Byte := (low7 v).setWidth 8

/-- A decimal digit's seven-segment pattern, R106. -/
def Config.seg (c : Config) (digit : Nat) : Byte := c.seg7[digit % 10]

/-- The three segment patterns hundreds, tens, ones of a display number, R106 (with 90 C3: a suppressed digit
is `SEG_BLANK`, never left out). -/
def Config.patterns (c : Config) : DisplayNum → Byte × Byte × Byte
  | none => (c.segBlank, c.segBlank, c.segBlank)
  | some v =>
    let h := v.val / 100
    let t := (v.val / 10) % 10
    let o := v.val % 10
    (if c.lzSuppress && h == 0 then c.segBlank else c.seg h,
     if c.lzSuppress && h == 0 && t == 0 then c.segBlank else c.seg t,
     c.seg o)

/-- The body of an LED frame, R100 and R295. -/
def Config.ledBody (c : Config) (d : Device) (m8 : Byte) : List Byte :=
  [c.cmdOutLed, c.idOf d, splitAddr (c.ledReg d) m8, splitData m8]

/-- The body of a digit-display frame, R101 and R296. -/
def Config.digBody (c : Config) (v : DisplayNum) : List Byte :=
  let p := c.patterns v
  [c.cmdOutDig, c.idFtsw, splitAddr c.digRegH p.1, splitData p.1, splitAddr c.digRegT p.2.1, splitData p.2.1,
   splitAddr c.digRegO p.2.2, splitData p.2.2]

end Sys2Proof
end

