-- ==== Sys2Proof/WellFormed.lean ====
section
/-! DEFINITION. Which operations a reading context admits, and with which operands: the encoding columns and the
selection columns of the operation table, as far as they speak of bytes. -/

namespace Sys2Proof

/-- Identifier and payload of an inbound frame of kind `k`: bit 7 clear in every byte and the length the command
byte fixes (R91, R92; command byte, identifier and checksum are the other three bytes). -/
def frameOk (c : Config) (k : Kind) (id : Byte) (payload : List Byte) : Bool :=
  !top id && payload.all (fun b => !top b) && payload.length + 3 == (c.len k).val

/-- A complete inbound frame with a bad checksum (R97, R152), by its bytes 1 to n-1. -/
def badBodyOk (c : Config) (k : Kind) (body : List Byte) : Bool :=
  body.all (fun b => !top b) && body.length + 1 == (c.len k).val && 2 ≤ body.length && xorAll body != 0

/-- Whether operation `i`, with its operands, is one that bytes read in context `ctx` can stand for. -/
def wellFormed (c : Config) (ctx : Ctx) : Instr → Bool
  | .init id pl => ctx == .frame && frameOk c .init id pl
  | .btn id pl => ctx == .frame && frameOk c .btn id pl
  | .pos id pl => ctx == .frame && frameOk c .pos id pl
  | .dbtn id pl => ctx == .frame && frameOk c .dbtn id pl
  | .badsum k body => ctx == .frame && badBodyOk c k body
  | .unknownCmd b => (ctx == .idle || ctx == .more) && top b && c.cmdKind b == none
  | .cmdStart _ => ctx == .idle || ctx == .more
  | .data b => ctx == .more && !top b
  | .stray b => ctx == .idle && !top b
  | .replyAck => ctx == .reply
  | .replyErr => ctx == .reply
  | .rplEcho _ => ctx == .rpl
  | .led _ _ => ctx == .pass
  | .dig _ => ctx == .pass
  | .echoOk b => ctx == .echo b false
  | .echoLast b => ctx == .echo b true
  | .echoMismatch b =>
    match ctx with
    | .echo expect _ => b != expect
    | _ => false
  | .respAck => ctx == .ackw
  | .respError => ctx == .ackw
  | .respOther b => ctx == .ackw && b != c.ack && b != c.error
  | .tick => ctx == .event
  | .setLed _ _ => ctx == .event
  | .clearLed _ _ => ctx == .event
  | .setDisplayNumber _ => ctx == .event
  | .clearDisplayNumber => ctx == .event
  | .poll => ctx == .event
  | .reset => ctx == .event

end Sys2Proof
end

