-- ==== Sys2Proof/Decode.lean ====
section
/-! DEFINITION. From wire bytes to operations and back (30_encoding.md R90 to R101, R114). `decode` is total: any
bytes in any context give an operation or a named rejection. -/

namespace Sys2Proof

/-- Why bytes stand for no operation in a context. -/
inductive DecodeError where
  /-- The number of bytes is not one this context reads. -/
  | wrongLength
  /-- Bit 7 of the first byte of a whole frame is clear, or the byte is no known command (R90, R108). -/
  | unknownCommand
  /-- A byte after the command byte has bit 7 set: it would have started a new frame (R91, R131). -/
  | topBitInside
  /-- Not a reply byte of the engine (R98). -/
  | notAReply
  /-- Not one of the engine's outbound command bytes (R99). -/
  | notOutbound
  /-- The identifier is neither pedal's (R107), or not FTSW's in a digit frame (R101). -/
  | badIdentifier
  /-- The trailing checksum of an outbound frame is wrong (R181). -/
  | badChecksum
  /-- A set-register sub-message addresses neither the base nor its neighbour, or its data has bit 7 set (R104). -/
  | badSubMessage
  /-- The three segment patterns are those of no display number (R106). -/
  | badPattern
  /-- The context's operations have no wire encoding (R113: tick and caller requests). -/
  | noEncoding
  deriving DecidableEq, Repr

/-- A complete frame of kind `k` with a good checksum (R154). -/
def goodFrame (k : Kind) (id : Byte) (payload : List Byte) : Instr :=
  match k with
  | .init => .init id payload
  | .btn => .btn id payload
  | .pos => .pos id payload
  | .dbtn => .dbtn id payload

/-- The bytes of a whole inbound frame (R91 to R97). -/
def decodeFrame (c : Config) (bs : List Byte) : Except DecodeError Instr :=
  match bs with
  | cmd :: id :: rest =>
    match c.cmdKind cmd with
    | none => .error .unknownCommand
    | some k =>
      if bs.length ≠ (c.len k).val ∨ rest = [] then .error .wrongLength
      else if (id :: rest).any top then .error .topBitInside
      else if cks bs = 0 then .ok (goodFrame k id rest.dropLast)
      else .ok (.badsum k (id :: rest))
  | _ => .error .wrongLength

/-- The 8-bit value a set-register sub-message carries (R104), read back from its address and data byte. -/
def unsplit (base addr data : Byte) : Option Byte :=
  if top data then none
  else if addr = base then some data
  else if addr = base + 1 then some (data ||| 0x80)
  else none

/-- An LED frame (R100). -/
def decodeLed (c : Config) (cmd id addr data ck : Byte) : Except DecodeError Instr :=
  if cmd ≠ c.cmdOutLed then .error .notOutbound
  else if cks [cmd, id, addr, data] ≠ ck then .error .badChecksum
  else match c.devOf id with
    | none => .error .badIdentifier
    | some d =>
      match unsplit (c.ledReg d) addr data with
      | none => .error .badSubMessage
      | some m8 => .ok (.led d m8)

/-- The digit a segment pattern shows, 0 if none. -/
def Config.digitOf (c : Config) (p : Byte) : Nat :=
  if p = c.segBlank then 0 else c.seg7.toList.idxOf p

/-- The display number three segment patterns show (R106), if any: a candidate is read digit by digit and kept
only if its own patterns are the three given. -/
def Config.numberOf (c : Config) (p : Byte × Byte × Byte) : Option DisplayNum :=
  let v : DisplayNum :=
    if p.2.2 = c.segBlank then none
    else some (Fin.ofNat 1000 (100 * c.digitOf p.1 + 10 * c.digitOf p.2.1 + c.digitOf p.2.2))
  if c.patterns v = p then some v else none

/-- A digit-display frame (R101). -/
def decodeDig (c : Config) (cmd id aH dH aT dT aO dO ck : Byte) : Except DecodeError Instr :=
  if cmd ≠ c.cmdOutDig then .error .notOutbound
  else if cks [cmd, id, aH, dH, aT, dT, aO, dO] ≠ ck then .error .badChecksum
  else if id ≠ c.idFtsw then .error .badIdentifier
  else match unsplit c.digRegH aH dH, unsplit c.digRegT aT dT, unsplit c.digRegO aO dO with
    | some sH, some sT, some sO =>
      match c.numberOf (sH, sT, sO) with
      | some v => .ok (.dig v)
      | none => .error .badPattern
    | _, _, _ => .error .badSubMessage

/-- The framer's reading of one byte with bit 7 set (R90 classes C and U). -/
def decodeCommand (c : Config) (b : Byte) : Instr :=
  match c.cmdKind b with
  | some k => .cmdStart k
  | none => .unknownCmd b

/-- The operation that bytes stand for in a context. -/
def decode (c : Config) : Ctx → List Byte → Except DecodeError Instr
  | .idle, [b] => .ok (if top b then decodeCommand c b else .stray b)
  | .more, [b] => .ok (if top b then decodeCommand c b else .data b)
  | .frame, bs => decodeFrame c bs
  | .reply, [b] => if b = c.ack then .ok .replyAck else if b = c.error then .ok .replyErr else .error .notAReply
  | .rpl, [b] => .ok (.rplEcho b)
  | .echo expect last, [b] =>
    .ok (if b = expect then (if last then .echoLast b else .echoOk b) else .echoMismatch b)
  | .ackw, [b] =>
    .ok (if b = c.ack then .respAck else if b = c.error then .respError else .respOther b)
  | .pass, [cmd, id, addr, data, ck] => decodeLed c cmd id addr data ck
  | .pass, [cmd, id, aH, dH, aT, dT, aO, dO, ck] => decodeDig c cmd id aH dH aT dT aO dO ck
  | .event, _ => .error .noEncoding
  | _, _ => .error .wrongLength

/-- The wire bytes of an operation (R93 to R101, R111): none for a tick or a caller request (R113). -/
def encode (c : Config) : Instr → List Byte
  | .init id pl => withCks (c.cmdInit :: id :: pl)
  | .btn id pl => withCks (c.cmdBtn :: id :: pl)
  | .pos id pl => withCks (c.cmdPos :: id :: pl)
  | .dbtn id pl => withCks (c.cmdDbtn :: id :: pl)
  | .unknownCmd b => [b]
  | .cmdStart k => [c.cmd k]
  | .data b => [b]
  | .stray b => [b]
  | .badsum k body => c.cmd k :: body
  | .replyAck => [c.ack]
  | .replyErr => [c.error]
  | .rplEcho b => [b]
  | .led d m8 => withCks (c.ledBody d m8)
  | .dig v => withCks (c.digBody v)
  | .echoOk b => [b]
  | .echoLast b => [b]
  | .echoMismatch b => [b]
  | .respAck => [c.ack]
  | .respError => [c.error]
  | .respOther b => [b]
  | .tick => []
  | .setLed _ _ => []
  | .clearLed _ _ => []
  | .setDisplayNumber _ => []
  | .clearDisplayNumber => []
  | .poll => []
  | .reset => []

/-- The bytes of a word of the operation table, first byte first. The table reads an encoding as one number whose
least significant bit is bit 0, so the first wire byte stands in the most significant byte of the word. -/
def tableBytes (nbits w : Nat) : List Byte :=
  (List.range (nbits / 8)).map fun j => BitVec.ofNat 8 (w >>> (8 * (nbits / 8 - 1 - j)))

/-- The operation a table word stands for under REF with the framer Idle and `txp = TX_IDLE`: one byte is a byte
given to the framer, more bytes are a whole inbound frame or, failing that, an outbound one. -/
def decodeTableWord (nbits w : Nat) : Option Instr :=
  let bs := tableBytes nbits w
  match bs with
  | [_] => (decode Config.ref .idle bs).toOption
  | _ =>
    match decode Config.ref .frame bs with
    | .ok i => some i
    | .error _ => (decode Config.ref .pass bs).toOption

end Sys2Proof
end

