-- ==== Sys2Proof/Machine/State.lean ====
section
/-! DEFINITION. The state of the engine (10_state.md R20 to R38), the trace items it emits (00_scope.md R11), the
input events it is given (R10), and its value at construction (R37, 70_reset_and_hazards.md R390). Plain data. -/

namespace Sys2Proof

/-- The events of the queue (44_payload_events.md R250). `none` of `Option Event` is the sentinel `None`, which
is never queued. -/
inductive Event where
  | edge (e : Edge)
  | position (p : BitVec 14)
  | deviceOnline (d : Device)
  | deviceOffline (d : Device)
  | doubleButton
  deriving DecidableEq, Repr

/-- The causes of a transmit failure (60_exceptions.md R340). -/
inductive TxCause where
  | echoMismatch
  | echoTimeout
  | ackTimeout
  | errorReply
  | badReply
  deriving DecidableEq, Repr

/-- The error categories of 60_exceptions.md R340, each with what its rule says it is raised with. None of them
stops the machine (R349, R359). -/
inductive ErrorCat where
  | strayByte (b : Byte)
  | unknownCommand (b : Byte)
  | checksumError
  | txFailure (cause : TxCause) (d : Device)
  | queueOverflow (e : Event)
  deriving DecidableEq, Repr

/-- The two levels the reset sequence gives the reset line (R391). -/
inductive LineLevel where
  | low
  | receiveCapable
  deriving DecidableEq, Repr

/-- The observable actions of a run: those of R11, and the link configuration calls of the reset sequence (R391,
93 U17: "Trace items with no modelled effect"). -/
inductive TraceItem where
  | rx (b : Byte)
  | tx (b : Byte)
  | tick
  | ev (e : Event)
  | drop (e : Event)
  | err (e : ErrorCat)
  | call (r : Request)
  | ret (e : Option Event)
  | enable (tx rx : Bool)
  | setResetLine (l : LineLevel)
  | waitMs (n : Nat)
  | setBaud (n : Nat)
  deriving DecidableEq, Repr

/-- The input events of R10. `noByte` is `try_read_byte` answering that no byte is waiting: the sequence of its
answers is the free input of R355 (log entry 2). -/
inductive Input where
  | rx (b : Byte)
  | noByte
  | tick
  | call (r : Request)
  deriving DecidableEq, Repr

/-- The transmitter phase `txp` (R25). -/
inductive Phase where
  | idle
  | rpl
  | echo
  | ackw
  deriving DecidableEq, Repr

/-- `mode` (R33). -/
inductive Mode where
  | run
  | resetting
  deriving DecidableEq, Repr

/-- `tkind` and `tval` (R25) as one tagged value: the acknowledged cache a success updates, and what it writes. -/
inductive TxVal where
  | led (m8 : Byte)
  | num (v : DisplayNum)
  deriving DecidableEq, Repr

/-- `tkind` (R25). -/
inductive TxKind where
  | led
  | num
  deriving DecidableEq, Repr

/-- The part of a device record both pedals have (R26). -/
structure DevBase where
  present : Bool
  errCnt : Nat
  ackLed : Byte
  ledStale : Bool
  deriving DecidableEq, Repr

/-- `dev[FTSW]` (R26); `btn` has buttons 1 to 4 at indices 0 to 3. -/
structure FtswRec where
  base : DevBase
  ackNum : DisplayNum
  numStale : Bool
  btn : Vector Bool 4
  deriving DecidableEq, Repr

/-- `dev[EXP]` (R26, R31). -/
structure ExpRec where
  base : DevBase
  btn1 : Bool
  posMin : BitVec 14
  posMax : BitVec 14
  calValid : Bool
  pos : BitVec 14
  deriving DecidableEq, Repr

/-- The fields common to both pedals of `DEV_ZERO(d)` (R27). -/
def DevBase.zero : DevBase where
  present := false
  errCnt := 0
  ackLed := 0x00
  ledStale := false

/-- `DEV_ZERO(FTSW)` (R27). -/
def FtswRec.zero : FtswRec where
  base := DevBase.zero
  ackNum := none
  numStale := false
  btn := Vector.replicate 4 false

/-- `DEV_ZERO(EXP)` (R27). -/
def ExpRec.zero : ExpRec where
  base := DevBase.zero
  btn1 := false
  posMin := 0
  posMax := 0
  calValid := false
  pos := 0

/-- Where the macro-operation `poll` stands (45_encoder_refresh_api.md R300): not called, in its drain loop, or
in the refresh pass it started and will return after (log entry 4). -/
inductive CallPhase where
  | none
  | draining
  | passing
  deriving DecidableEq, Repr

/-- The line of `REFRESH_PASS` (R299) to be looked at next. -/
inductive PassLine where
  | ftswLed
  | ftswNum
  | expLed
  | done
  deriving DecidableEq, Repr

namespace Machine

/-- The machine never faults: "There is no behaviour in this spec that a model should treat as `fault` or
`stuck`" (93_implementation_defined.md; 60_exceptions.md R351, R359). A closed type with no constructor. -/
inductive Fault where
  deriving DecidableEq, Repr

/-- Why an operation has no meaning. -/
inductive Refusal where
  /-- Raised by `exec` for an operation whose meaning is not written; no arm does. Safe: the machine stops. -/
  | notModelled (mnemonic : String)
  deriving DecidableEq, Repr

/-- The state of the engine (R20), the parameters of its instantiation (`cfg`, log entry 1), the input events not
yet delivered (`input`, log entry 2), the trace so far, oldest first (`trace`, log entry 3), and where the
macro-operation `poll` and the refresh pass stand (`call`, `pass`, log entry 4). -/
structure State where
  cfg : Config
  fb : Vector Byte 7
  plen : Fin 8
  explen : Fin 8
  tb : Vector Byte 9
  txp : Phase
  tidx : Fin 9
  tlen : Fin 10
  tmr : Nat
  tdev : Device
  tval : TxVal
  ftsw : FtswRec
  exp : ExpRec
  pendLedFtsw : Byte
  pendLedExp : Byte
  pendNum : DisplayNum
  eq : List Event
  quiet : Nat
  mode : Mode
  input : List Input
  trace : List TraceItem
  call : CallPhase
  pass : Option PassLine
  deriving DecidableEq, Repr

/-- The construction state of a configuration (R37, column "construction"; R390). -/
def State.construct (c : Config) : State where
  cfg := c
  fb := Vector.replicate 7 0x00
  plen := 0
  explen := 0
  tb := Vector.replicate 9 0x00
  txp := .idle
  tidx := 0
  tlen := 0
  tmr := 0
  tdev := .ftsw
  tval := .led 0x00
  ftsw := FtswRec.zero
  exp := ExpRec.zero
  pendLedFtsw := 0x00
  pendLedExp := 0x00
  pendNum := none
  eq := []
  quiet := c.quiesceMs
  mode := .run
  input := []
  trace := []
  call := .none
  pass := none

/-- The machine right after construction, under the reference instantiation (log entry 1). -/
def State.reset : State := State.construct Config.ref

end Machine

end Sys2Proof
end

