-- ==== Sys2Proof/Machine/Flags.lean ====
section
/-! DEFINITION. The status predicates (10_state.md R34), the dirty tests (45_encoder_refresh_api.md R294), the
refresh gate (R298), the read-only snapshot (R302), and when an operation is selected (the table's selection
column; 30_encoding.md R114, 40_framer.md R130). None of them changes the state. -/

namespace Sys2Proof.Machine

/-- `framer_idle`, R34. -/
def State.framerIdle (s : State) : Bool := s.explen == 0

/-- `tx_idle`, R34. -/
def State.txIdle (s : State) : Bool := s.txp == .idle

/-- `queue_empty`, R34. -/
def State.queueEmpty (s : State) : Bool := s.eq == []

/-- `queue_full`, R34. -/
def State.queueFull (s : State) : Bool := s.eq.length == s.cfg.queueCap

/-- `tkind`, R25. -/
def State.tkind (s : State) : TxKind :=
  match s.tval with
  | .led _ => .led
  | .num _ => .num

/-- The common fields of `dev[d]`. -/
def State.dev (s : State) : Device → DevBase
  | .ftsw => s.ftsw.base
  | .exp => s.exp.base

/-- `pend_led[d]`, R29. -/
def State.pendLed (s : State) : Device → Byte
  | .ftsw => s.pendLedFtsw
  | .exp => s.pendLedExp

/-- `led_dirty(d)`, R294. -/
def State.ledDirty (s : State) (d : Device) : Bool :=
  (s.dev d).present && ((s.dev d).ledStale || s.pendLed d != (s.dev d).ackLed)

/-- `num_dirty`, R294. -/
def State.numDirty (s : State) : Bool :=
  s.ftsw.base.present && (s.ftsw.numStale || s.pendNum != s.ftsw.ackNum)

/-- Some cache is dirty: a refresh pass would send at least one frame. -/
def State.anyDirty (s : State) : Bool := s.ledDirty .ftsw || s.numDirty || s.ledDirty .exp

/-- The refresh gate, R298, at a moment when `BusTryRead()` has just returned `none`. -/
def State.gate (s : State) : Bool :=
  s.mode == .run && s.txIdle && s.framerIdle && s.queueEmpty &&
    (s.cfg.quiesceMs == 0 || s.quiet == s.cfg.quiesceMs)

/-- The fields the caller may read, R302. -/
structure Snapshot where
  ftswPresent : Bool
  expPresent : Bool
  ftswBtn : Vector Bool 4
  expBtn1 : Bool
  pos : BitVec 14
  posMin : BitVec 14
  posMax : BitVec 14
  deriving DecidableEq, Repr

/-- The current snapshot, R302. -/
def State.snapshot (s : State) : Snapshot where
  ftswPresent := s.ftsw.base.present
  expPresent := s.exp.base.present
  ftswBtn := s.ftsw.btn
  expBtn1 := s.exp.btn1
  pos := s.exp.pos
  posMin := s.exp.posMin
  posMax := s.exp.posMax

/-- The bytes of the frame in progress, R21 and R61. -/
def State.partialFrame (s : State) : List Byte := s.fb.toList.take s.plen.val

/-- Where a received byte is read and which bytes it is read together with: the phase decides the reader (R114,
R130), in `TX_IDLE` bit 7 and the framer's position do (R131 to R135). -/
def State.rxContext (s : State) (b : Byte) : Ctx × List Byte :=
  match s.txp with
  | .rpl => (.rpl, [b])
  | .echo => (.echo s.tb[s.tidx] (s.tidx.val + 1 == s.tlen.val), [b])
  | .ackw => (.ackw, [b])
  | .idle =>
    if top b then (.idle, [b])
    else if s.plen.val < s.explen.val then
      if s.plen.val + 1 = s.explen.val then (.frame, s.partialFrame ++ [b]) else (.more, [b])
    else (.idle, [b])

/-- The operation a received byte selects. Bytes that complete something that is no frame of the table (in states
no run reaches, R159) are an append, R133, whose completion test decides. -/
def State.rxInstr (s : State) (b : Byte) : Instr :=
  match decode s.cfg (s.rxContext b).1 (s.rxContext b).2 with
  | .ok i => i
  | .error _ => .data b

/-- The framer receives: R130 with `txp = TX_IDLE`. -/
def State.framing (s : State) : Bool := s.mode == .run && s.txp == .idle

/-- The last byte of `bytes` completes them as a frame in this state. -/
def State.completes (s : State) (bytes : List Byte) : Bool :=
  s.framing && s.plen.val + 1 == s.explen.val && s.explen.val == bytes.length &&
    s.partialFrame == bytes.dropLast

/-- The transmitter awaits an echo: R130 with `txp = TX_ECHO`. -/
def State.echoing (s : State) : Bool := s.mode == .run && s.txp == .echo

/-- The transmitter awaits a response: R130 with `txp = TX_ACKW`. -/
def State.responding (s : State) : Bool := s.mode == .run && s.txp == .ackw

/-- The selection column of the operation table: the condition under which an operation is the one its input
event performs. Operations the table selects by no received byte (the refresh pass tests LED and DIG itself,
R299; ticks and caller requests) are always selected. -/
def State.selects (s : State) (i : Instr) : Bool :=
  match i with
  | .init id pl => wellFormed s.cfg .frame (.init id pl) && s.completes (encode s.cfg (.init id pl))
  | .btn id pl => wellFormed s.cfg .frame (.btn id pl) && s.completes (encode s.cfg (.btn id pl))
  | .pos id pl => wellFormed s.cfg .frame (.pos id pl) && s.completes (encode s.cfg (.pos id pl))
  | .dbtn id pl => wellFormed s.cfg .frame (.dbtn id pl) && s.completes (encode s.cfg (.dbtn id pl))
  | .badsum k body => wellFormed s.cfg .frame (.badsum k body) && s.completes (encode s.cfg (.badsum k body))
  | .unknownCmd b => s.framing && top b && s.cfg.cmdKind b == none
  | .cmdStart _ => s.framing
  | .data b => s.framing && !top b && decide (s.plen.val < s.explen.val)
  | .stray b => s.framing && !top b && !decide (s.plen.val < s.explen.val)
  | .replyAck => s.framing && s.framerIdle
  | .replyErr => s.framing && s.framerIdle
  | .rplEcho _ => s.mode == .run && s.txp == .rpl
  | .echoOk b => s.echoing && b == s.tb[s.tidx] && decide (s.tidx.val + 1 < s.tlen.val)
  | .echoLast b => s.echoing && b == s.tb[s.tidx] && s.tidx.val + 1 == s.tlen.val
  | .echoMismatch b => s.echoing && b != s.tb[s.tidx]
  | .respAck => s.responding
  | .respError => s.responding
  | .respOther b => s.responding && b != s.cfg.ack && b != s.cfg.error
  | .led _ _ => true
  | .dig _ => true
  | .tick => true
  | .setLed _ _ => true
  | .clearLed _ _ => true
  | .setDisplayNumber _ => true
  | .clearDisplayNumber => true
  | .poll => true
  | .reset => true

end Sys2Proof.Machine
end

