-- ==== Sys2Proof/Machine/Ops.lean ====
section
/-! DEFINITION. The named operations every meaning is built from: trace and bus (00_scope.md R9, R11), raising an
error (60_exceptions.md R340 to R345), the event queue (44_payload_events.md R251, R252), the device records and
their presence machines (43_presence.md R220 to R224), the frame buffers, and performing a selected operation.

Taking an exception: the engine has no trap (60_exceptions.md R349: "No error saves anything"). `State.raise`
records the category; the entry actions of each category are those its rule gives, in the operations that call
it, and returning is going on with the next event (R350). -/

namespace Sys2Proof.Machine

/-- One more trace item, R11. -/
def State.emit (s : State) (t : TraceItem) : State := { s with trace := s.trace ++ [t] }

/-- `BusSend(b)`, R9. -/
def State.busSend (s : State) (b : Byte) : State := s.emit (.tx b)

/-- `raise <Name>(info)`, R9, with the `Log` strobe of R357: recorded in the trace, no other effect. -/
def State.raise (s : State) (e : ErrorCat) : State := s.emit (.err e)

/-- What every `rx(b)` event does whatever reads the byte: R130 (`quiet <- 0`, R32). -/
def State.rxEvent (s : State) (b : Byte) : State := { s with quiet := 0 }.emit (.rx b)

/-- `Push(e)`, R251: drop-newest when the queue is full, with `QueueOverflow` (R345). -/
def State.push (s : State) (e : Event) : State :=
  if s.eq.length < s.cfg.queueCap then { s with eq := s.eq ++ [e] }.emit (.ev e)
  else (s.emit (.drop e)).raise (.queueOverflow e)

/-- `Pop()`, R252, and the value the caller gets from it (R11 `ret`). -/
def State.popRet (s : State) : State :=
  match s.eq with
  | [] => s.emit (.ret none)
  | e :: rest => { s with eq := rest }.emit (.ret (some e))

/-- Write the common fields of `dev[d]`. -/
def State.setDev (s : State) (d : Device) (v : DevBase) : State :=
  match d with
  | .ftsw => { s with ftsw := { s.ftsw with base := v } }
  | .exp => { s with exp := { s.exp with base := v } }

/-- `dev[d] <- DEV_ZERO(d)`, R27. -/
def State.zeroDev (s : State) (d : Device) : State :=
  match d with
  | .ftsw => { s with ftsw := FtswRec.zero }
  | .exp => { s with exp := ExpRec.zero }

/-- Write `pend_led[d]`, R29. -/
def State.setPendLed (s : State) (d : Device) (v : Byte) : State :=
  match d with
  | .ftsw => { s with pendLedFtsw := v }
  | .exp => { s with pendLedExp := v }

/-- `dev[d]` after an INIT frame: zeroed, present, its caches stale, R221. -/
def State.freshDev (s : State) (d : Device) : State :=
  match d with
  | .ftsw =>
    { s with ftsw := { FtswRec.zero with base := { DevBase.zero with present := true, ledStale := true },
                                         numStale := true } }
  | .exp => { s with exp := { ExpRec.zero with base := { DevBase.zero with present := true, ledStale := true } } }

/-- `DEV_ONLINE(d)`, R221. -/
def State.devOnline (s : State) (d : Device) : State := (s.freshDev d).push (.deviceOnline d)

/-- `DEV_FAIL(d)`: the counting arm R222 below the threshold, the eviction arm R223 when the counter would reach
it. -/
def State.devFail (s : State) (d : Device) : State :=
  if (s.dev d).errCnt + 1 < s.cfg.errThreshold then
    s.setDev d { s.dev d with errCnt := (s.dev d).errCnt + 1 }
  else (s.zeroDev d).push (.deviceOffline d)

/-- `DEV_SUCCESS(d)`, R224. -/
def State.devSuccess (s : State) (d : Device) : State := s.setDev d { s.dev d with errCnt := 0 }

/-- `TX_FAIL(cause)`, R191 and R344: raise, abandon the frame, charge the pedal it was for. -/
def State.txFail (s : State) (cause : TxCause) : State :=
  { s.raise (.txFailure cause s.tdev) with txp := .idle }.devFail s.tdev

/-- The acknowledged cache a successful frame updates, R190: the captured value, and its stale bit cleared. -/
def State.ackCache (s : State) : State :=
  match s.tval with
  | .led m8 => s.setDev s.tdev { s.dev s.tdev with ackLed := m8, ledStale := false }
  | .num v => { s with ftsw := { s.ftsw with ackNum := v, numStale := false } }

/-- `TX_OK`, R190. -/
def State.txOk (s : State) : State := { (s.devSuccess s.tdev).ackCache with txp := .idle }

/-- Start of the reply phase after a reply byte, R151 and R152. -/
def State.startReply (s : State) (b : Byte) : State := { s.busSend b with txp := .rpl, tmr := 0 }

/-- Append a byte to the frame in progress, R133. -/
def State.append (s : State) (b : Byte) : State :=
  { s with fb := s.fb.setIfInBounds s.plen.val b, plen := s.plen + 1 }

/-- Re-arm the framer to Idle, R135 (and R132). -/
def State.rearm (s : State) : State := { s with plen := 0, explen := 0 }

/-- The bytes of `TB` after a frame is stored from index 0 on, R180: bytes beyond the frame stay. -/
def State.storeTb (s : State) (bs : List Byte) : State :=
  { s with tb := Vector.ofFn fun i => bs.getD i.val s.tb[i] }

/-- The precondition of `TX_START`, R180: four conditions on the state, and the body's length range. -/
def State.txStartOk (s : State) (d : Device) (body : List Byte) : Bool :=
  s.mode == .run && s.txIdle && s.framerIdle && (s.dev d).present && decide (2 ≤ body.length) &&
    decide (body.length ≤ 8)

/-- `TX_START(d, kind, val, B)`, R180; refused without effect when its precondition fails, R194. -/
def State.txStart (s : State) (d : Device) (val : TxVal) (body : List Byte) : State :=
  if s.txStartOk d body then
    { ({ s.storeTb (withCks body) with
          tlen := Fin.ofNat 10 (body.length + 1), tidx := 0, tdev := d, tval := val }.busSend
        (body.headD 0)) with txp := .echo, tmr := 0 }
  else s

/-- Perform an operation whose selecting condition holds; an operation that is not selected does nothing (log
entry 8). -/
def State.perform (s : State) (i : Instr) (op : State → State) : Host.Outcome State Fault Refusal :=
  .next (if s.selects i then op s else s)

end Sys2Proof.Machine
end

