-- ==== Sys2Proof/Machine/Builders.lean ====
section
/-! DEFINITION. The frame builders and the caller requests that change the pending state
(45_encoder_refresh_api.md R290 to R297). -/

namespace Sys2Proof.Machine

/-- LED, R295: build the LED frame of `d` for mask `m8` and start it. The refresh pass gives it `pend_led[d]`. -/
def execLed (d : Device) (m8 : Byte) (s : State) : Host.Outcome State Fault Refusal :=
  s.perform (.led d m8) fun s => s.txStart d (.led m8) (s.cfg.ledBody d m8)

/-- DIG, R296: build the digit-display frame of `v` and start it, to FTSW. The refresh pass gives it `pend_num`. -/
def execDig (v : DisplayNum) (s : State) : Host.Outcome State Fault Refusal :=
  s.perform (.dig v) fun s => s.txStart .ftsw (.num v) (s.cfg.digBody v)

/-- `1 << k` on 8 bits. -/
def ledBit (k : Fin 8) : Byte := 1#8 <<< k.val

/-- set_led, R290. -/
def execSetLed (d : Device) (k : Fin 8) (s : State) : Host.Outcome State Fault Refusal :=
  s.perform (.setLed d k) fun s =>
    (s.emit (.call (.setLed d k))).setPendLed d (s.pendLed d ||| ledBit k)

/-- clear_led, R291. -/
def execClearLed (d : Device) (k : Fin 8) (s : State) : Host.Outcome State Fault Refusal :=
  s.perform (.clearLed d k) fun s =>
    (s.emit (.call (.clearLed d k))).setPendLed d (s.pendLed d &&& ~~~ledBit k)

/-- set_display_number, R292: taken modulo 1000. -/
def execSetDisplayNumber (v : Nat) (s : State) : Host.Outcome State Fault Refusal :=
  s.perform (.setDisplayNumber v) fun s =>
    { s.emit (.call (.setDisplayNumber v)) with pendNum := some (Fin.ofNat 1000 v) }

/-- clear_display_number, R293. -/
def execClearDisplayNumber (s : State) : Host.Outcome State Fault Refusal :=
  s.perform .clearDisplayNumber fun s => { s.emit (.call .clearDisplayNumber) with pendNum := none }

end Sys2Proof.Machine
end

