-- ==== Sys2Proof/Machine/Framer.lean ====
section
/-! DEFINITION. The framer (40_framer.md R130 to R138), the checksum test, the replies and the dispatch that end
in it (41_checksum_reply_dispatch.md R150 to R160), and the payload decoders dispatch calls
(44_payload_events.md R253 to R258), as far as they are shared by several operations; and the meanings of the
framer's four operations. -/

namespace Sys2Proof.Machine

/-- `APPLY_EDGE(e)`, R255. -/
def State.applyEdge (s : State) : Edge → State
  | .ftswDown k => { s with ftsw := { s.ftsw with btn := s.ftsw.btn.set k true } }
  | .ftswUp k => { s with ftsw := { s.ftsw with btn := s.ftsw.btn.set k false } }
  | .expDown => { s with exp := { s.exp with btn1 := true } }
  | .expUp => { s with exp := { s.exp with btn1 := false } }

/-- `BTN_DECODE(c)`, R253: an unmapped combination does nothing. -/
def State.btnDecode (s : State) (x : BitVec 16) : State :=
  match s.cfg.button x with
  | none => s
  | some e => (s.applyEdge e).push (.edge e)

/-- `DBTN_DECODE(ca, cb)`, R256: the marker always, an edge for each mapped sub-field. -/
def State.dbtnDecode (s : State) (xa xb : BitVec 16) : State :=
  ((s.push .doubleButton).btnDecode xa).btnDecode xb

/-- The calibration pair after a raw reading, R257 and R258. -/
def ExpRec.calibrate (r : ExpRec) (raw : BitVec 14) : ExpRec :=
  if r.calValid then
    { r with posMin := if raw < r.posMin then raw else r.posMin,
             posMax := if r.posMax < raw then raw else r.posMax }
  else { r with posMin := raw, posMax := raw, calValid := true }

/-- `POS_DECODE(raw)`, R257. -/
def State.posDecode (s : State) (raw : BitVec 14) : State :=
  let r := ExpRec.calibrate s.exp raw
  { s with exp := { r with pos := raw - r.posMin } }.push (.position (raw - r.posMin))

/-- `COMBO(k)` of the buffer, R103. -/
def State.comboAt (s : State) (k : Fin 6) : BitVec 16 :=
  combo s.fb[k.castSucc] s.fb[k.succ]

/-- `DO_INIT`, R155. -/
def State.doInit (s : State) : State :=
  match s.cfg.devOf s.fb[1] with
  | none => s
  | some d => s.devOnline d

/-- `DO_BTN`, R156. -/
def State.doBtn (s : State) : State := s.btnDecode (s.comboAt s.cfg.offBtn)

/-- `DO_DBTN`, R157. -/
def State.doDbtn (s : State) : State := s.dbtnDecode (s.comboAt s.cfg.offDbtnA) (s.comboAt s.cfg.offDbtnB)

/-- `DO_POS`, R158. -/
def State.doPos (s : State) : State := s.posDecode (pos14 s.fb[s.cfg.offPosHi] s.fb[s.cfg.offPosLo])

/-- `DISPATCH`, R154; the `Unknown` arm of R159 does nothing. -/
def State.dispatch (s : State) : State :=
  match s.cfg.cmdKind s.fb[0] with
  | some .init => s.doInit
  | some .btn => s.doBtn
  | some .dbtn => s.doDbtn
  | some .pos => s.doPos
  | none => s

/-- `REPLY_ACK`, R151. -/
def State.replyAck (s : State) : State := s.startReply s.cfg.ack

/-- `REPLY_ERR`, R152: no dispatch follows. -/
def State.replyErr (s : State) : State := (s.startReply s.cfg.error).raise .checksumError

/-- `CHECK(n)`, R150: whether bytes 1 to n-1 of the buffer XOR to zero. -/
def State.checkGood (s : State) (n : Nat) : Bool := cks (s.fb.toList.take n) == 0

/-- `DECODE(n)`, R160. -/
def State.decodeFrame (s : State) (n : Nat) : State :=
  if s.checkGood n then s.replyAck.dispatch else s.replyErr

/-- `FRAME_COMPLETE`, R135: the completion test and re-arm, then the decoder. -/
def State.frameComplete (s : State) : State :=
  if s.explen.val ≠ 0 ∧ s.plen = s.explen then s.rearm.decodeFrame s.explen.val else s

/-- A whole frame has arrived with byte `b`: stored and the framer re-armed, R133 and R135, before anything is
decoded. -/
def State.completeWith (s : State) (b : Byte) : State := ((s.rxEvent b).append b).rearm

/-- CMD_START, R131: a known command byte starts a frame in any framer state, silently dropping one in progress
(R136). -/
def execCmdStart (k : Kind) (s : State) : Host.Outcome State Fault Refusal :=
  s.perform (.cmdStart k) fun s =>
    let s := s.rxEvent (s.cfg.cmd k)
    { s with fb := s.fb.set 0 (s.cfg.cmd k), plen := 1, explen := s.cfg.len k }

/-- UNKNOWN_CMD, R132 with R342. -/
def execUnknownCmd (b : Byte) (s : State) : Host.Outcome State Fault Refusal :=
  s.perform (.unknownCmd b) fun s => (s.rxEvent b).rearm.raise (.unknownCommand b)

/-- DATA, R133, followed by the completion test R135. -/
def execData (b : Byte) (s : State) : Host.Outcome State Fault Refusal :=
  s.perform (.data b) fun s => ((s.rxEvent b).append b).frameComplete

/-- STRAY, R134 with R341. -/
def execStray (b : Byte) (s : State) : Host.Outcome State Fault Refusal :=
  s.perform (.stray b) fun s => (s.rxEvent b).raise (.strayByte b)

end Sys2Proof.Machine
end

