-- ==== Sys2Proof/Machine/Decoder.lean ====
section
/-! DEFINITION. The operations of complete inbound frames and of the reply byte (41_checksum_reply_dispatch.md). A
frame operation is the one atomic operation of the event that delivers the frame's last byte (R135, R160): the
byte is stored, the framer re-armed, the reply sent, then the command's own effect (R73). -/

namespace Sys2Proof.Machine

/-- INIT, R155: acknowledged, and the pedal its identifier names comes online. -/
def execInit (id : Byte) (payload : List Byte) (s : State) : Host.Outcome State Fault Refusal :=
  s.perform (.init id payload) fun s =>
    (s.completeWith (cks (s.cfg.cmdInit :: id :: payload))).replyAck.doInit

/-- BTN, R156. -/
def execBtn (id : Byte) (payload : List Byte) (s : State) : Host.Outcome State Fault Refusal :=
  s.perform (.btn id payload) fun s =>
    (s.completeWith (cks (s.cfg.cmdBtn :: id :: payload))).replyAck.doBtn

/-- POS, R158. -/
def execPos (id : Byte) (payload : List Byte) (s : State) : Host.Outcome State Fault Refusal :=
  s.perform (.pos id payload) fun s =>
    (s.completeWith (cks (s.cfg.cmdPos :: id :: payload))).replyAck.doPos

/-- DBTN, R157. -/
def execDbtn (id : Byte) (payload : List Byte) (s : State) : Host.Outcome State Fault Refusal :=
  s.perform (.dbtn id payload) fun s =>
    (s.completeWith (cks (s.cfg.cmdDbtn :: id :: payload))).replyAck.doDbtn

/-- BADSUM, R152: the frame is answered with `ERROR` and not dispatched. -/
def execBadsum (k : Kind) (body : List Byte) (s : State) : Host.Outcome State Fault Refusal :=
  s.perform (.badsum k body) fun s => (s.completeWith (body.getLastD 0)).replyErr

/-- REPLY_ACK, R151, on its own; the frame operations perform it inside themselves. -/
def execReplyAck (s : State) : Host.Outcome State Fault Refusal :=
  s.perform .replyAck State.replyAck

/-- REPLY_ERR, R152, on its own; BADSUM performs it inside itself. -/
def execReplyErr (s : State) : Host.Outcome State Fault Refusal :=
  s.perform .replyErr State.replyErr

/-- RPL_ECHO, R153: the byte is discarded whatever its value. -/
def execRplEcho (b : Byte) (s : State) : Host.Outcome State Fault Refusal :=
  s.perform (.rplEcho b) fun s => { s.rxEvent b with txp := .idle }

end Sys2Proof.Machine
end

