-- ==== Sys2Proof/Machine/Poll.lean ====
section
/-! DEFINITION. The macro-operation `poll` and the refresh pass (45_encoder_refresh_api.md R298 to R304). `poll`
delivers the waiting bytes one event at a time, tests the gate once when no byte is waiting, runs the refresh pass
line by line, and returns one event. Between two events the state says where it stands (`call`, `pass`). -/

namespace Sys2Proof.Machine

/-- The next input event is a byte: `BusTryRead()` would return it. -/
def State.byteWaiting (s : State) : Bool :=
  match s.input with
  | .rx _ :: _ => true
  | _ => false

/-- The drain loop of R300 is over: it is not waiting for a reply's echo and `BusTryRead()` returns `none`. -/
def State.drainOver (s : State) : Bool := s.call == .draining && s.txp != .rpl && !s.byteWaiting

/-- `BusTryRead()` has returned `none`: the answer is consumed if it stands in the input. -/
def afterNoByte : List Input → List Input
  | .noByte :: rest => rest
  | events => events

/-- The state after `BusTryRead()` has returned `none`. -/
def State.takeNoByte (s : State) : State := { s with input := afterNoByte s.input }

/-- After the drain, R300: a refresh pass if the gate holds and a cache is dirty (a pass with nothing dirty sends
nothing, R299), else the pop and the return. -/
def State.endDrain (s : State) : State :=
  let s := s.takeNoByte
  if s.gate && s.anyDirty then { s with pass := some .ftswLed, call := .passing }
  else { s.popRet with call := .none }

/-- The first frame owed at or after a line of `REFRESH_PASS`, R299, and the line after it. -/
def State.lineInstr (s : State) : PassLine → Option (Instr × PassLine)
  | .ftswLed =>
    if s.ledDirty .ftsw then some (.led .ftsw (s.pendLed .ftsw), .ftswNum)
    else if s.numDirty then some (.dig s.pendNum, .expLed)
    else if s.ledDirty .exp then some (.led .exp (s.pendLed .exp), .done)
    else none
  | .ftswNum =>
    if s.numDirty then some (.dig s.pendNum, .expLed)
    else if s.ledDirty .exp then some (.led .exp (s.pendLed .exp), .done)
    else none
  | .expLed =>
    if s.ledDirty .exp then some (.led .exp (s.pendLed .exp), .done) else none
  | .done => none

/-- The end of a refresh pass, R299; a `poll` that started it pops and returns, R300. -/
def State.endPass (s : State) : State :=
  let s := { s with pass := none }
  if s.call == .passing then { s.popRet with call := .none } else s

/-- `try_read_byte` answered `none` outside a drain: the moment at which a hardware realisation tests the refresh
gate, R304. Under the software scheduling only a `poll` tests it, R300. -/
def State.gateTest (s : State) : State :=
  if s.cfg.sched == .hardware && s.call == .none && s.pass == none && s.gate && s.anyDirty then { s with pass := some .ftswLed } else s

/-- The drain loop of R300 begins. -/
def State.startDrain (s : State) : State := { s with call := .draining }

/-- The body of `poll`, R300: `None` in mode RESETTING; otherwise the drain begins, and if no byte is waiting it is
already over. Under the hardware scheduling `poll` reduces to the pop, R304; so does a `poll` while another is running,
which R300's single thread excludes (log entry 4). -/
def State.pollBody (s : State) : State :=
  if s.mode = .resetting then s.emit (.ret none)
  else if s.cfg.sched = .hardware ∨ s.call ≠ .none then s.popRet
  else if s.startDrain.drainOver then s.startDrain.endDrain
  else s.startDrain

/-- poll, R300. -/
def execPoll (s : State) : Host.Outcome State Fault Refusal :=
  s.perform .poll fun s => (s.emit (.call .poll)).pollBody

end Sys2Proof.Machine
end

