-- ==== Sys2Proof/Machine/ResetSequence.lean ====
section
/-! DEFINITION. The macro-operation `reset`, the reset and recovery sequence (70_reset_and_hazards.md R391, R392;
45_encoder_refresh_api.md R301). -/

namespace Sys2Proof.Machine

/-- `CLEAR_STATE`, R392 with the column "`reset()`" of R37: the pending output state is not changed. -/
def State.clearState (s : State) : State :=
  { s with
    ftsw := FtswRec.zero
    exp := ExpRec.zero
    eq := []
    plen := 0
    explen := 0
    fb := Vector.replicate 7 0x00
    txp := .idle
    tidx := 0
    tlen := 0
    tmr := 0
    tdev := .ftsw
    tval := .led 0x00
    tb := Vector.replicate 9 0x00
    quiet := s.cfg.quiesceMs }

/-- reset, R391: the configuration calls in their order, then `CLEAR_STATE`. "The sequence is blocking": no event
is delivered during it, so it is one operation. -/
def execReset (s : State) : Host.Outcome State Fault Refusal :=
  s.perform .reset fun s =>
    let s := { s.emit (.call .reset) with mode := .resetting }
    let s := s.emit (.enable false false)
    let s := s.emit (.setResetLine .low)
    let s := s.emit (.waitMs s.cfg.resetLowMs)
    let s := s.emit (.setResetLine .receiveCapable)
    let s := s.emit (.setBaud s.cfg.baud)
    let s := s.emit (.enable true true)
    { s.clearState with mode := .run }

end Sys2Proof.Machine
end

