-- ==== Sys2Proof/Machine/Transmitter.lean ====
section
/-! DEFINITION. The echo-verified transmitter and its response decoder (42_transmitter.md R182 to R192). -/

namespace Sys2Proof.Machine

/-- ECHO_OK, R182: the echo matched and is not the last; the next byte goes out. -/
def execEchoOk (b : Byte) (s : State) : Host.Outcome State Fault Refusal :=
  s.perform (.echoOk b) fun s =>
    { ({ s.rxEvent b with tidx := s.tidx + 1 }.busSend s.tb[s.tidx + 1]) with tmr := 0 }

/-- ECHO_LAST, R185: the checksum byte's echo matched; the response is awaited. -/
def execEchoLast (b : Byte) (s : State) : Host.Outcome State Fault Refusal :=
  s.perform (.echoLast b) fun s => { s.rxEvent b with txp := .ackw, tmr := 0 }

/-- ECHO_MISMATCH, R183. -/
def execEchoMismatch (b : Byte) (s : State) : Host.Outcome State Fault Refusal :=
  s.perform (.echoMismatch b) fun s => (s.rxEvent b).txFail .echoMismatch

/-- RESP_ACK, R186. -/
def execRespAck (s : State) : Host.Outcome State Fault Refusal :=
  s.perform .respAck fun s => (s.rxEvent s.cfg.ack).txOk

/-- RESP_ERROR, R187. -/
def execRespError (s : State) : Host.Outcome State Fault Refusal :=
  s.perform .respError fun s => (s.rxEvent s.cfg.error).txFail .errorReply

/-- RESP_OTHER, R188. -/
def execRespOther (b : Byte) (s : State) : Host.Outcome State Fault Refusal :=
  s.perform (.respOther b) fun s => (s.rxEvent b).txFail .badReply

/-- The silence counter after one more tick, saturating at `QUIESCE_MS`, R32 and R192. -/
def State.quietTick (s : State) : State :=
  { s with quiet := if s.quiet < s.cfg.quiesceMs then s.quiet + 1 else s.quiet }

/-- The phase timer after one more tick and the timeout of its phase, R192: the end of `TX_RPL` (R153),
ECHO_TIMEOUT (R184), ACK_TIMEOUT (R189). -/
def State.phaseTick (s : State) : State :=
  match s.txp with
  | .idle => s
  | .rpl =>
    let t := { s with tmr := s.tmr + 1 }
    if t.tmr = t.cfg.tEcho then { t with txp := .idle } else t
  | .echo =>
    let t := { s with tmr := s.tmr + 1 }
    if t.tmr = t.cfg.tEcho then t.txFail .echoTimeout else t
  | .ackw =>
    let t := { s with tmr := s.tmr + 1 }
    if t.tmr = t.cfg.tAck then t.txFail .ackTimeout else t

/-- TICK, R192. -/
def execTick (s : State) : Host.Outcome State Fault Refusal :=
  s.perform .tick fun s => (s.emit .tick).quietTick.phaseTick

end Sys2Proof.Machine
end

