-- ==== Sys2Proof/Machine/Dispatch.lean ====
section
/-! DEFINITION. One arm per operation of the table. -/

namespace Sys2Proof.Machine

def exec (i : Instr) (s : State) : Host.Outcome State Fault Refusal :=
  match i with
  | .init id payload => Sys2Proof.Machine.execInit id payload s
  | .btn id payload => Sys2Proof.Machine.execBtn id payload s
  | .pos id payload => Sys2Proof.Machine.execPos id payload s
  | .dbtn id payload => Sys2Proof.Machine.execDbtn id payload s
  | .unknownCmd b => Sys2Proof.Machine.execUnknownCmd b s
  | .cmdStart k => Sys2Proof.Machine.execCmdStart k s
  | .data b => Sys2Proof.Machine.execData b s
  | .stray b => Sys2Proof.Machine.execStray b s
  | .badsum k body => Sys2Proof.Machine.execBadsum k body s
  | .replyAck => Sys2Proof.Machine.execReplyAck s
  | .replyErr => Sys2Proof.Machine.execReplyErr s
  | .rplEcho b => Sys2Proof.Machine.execRplEcho b s
  | .led d m8 => Sys2Proof.Machine.execLed d m8 s
  | .dig v => Sys2Proof.Machine.execDig v s
  | .echoOk b => Sys2Proof.Machine.execEchoOk b s
  | .echoLast b => Sys2Proof.Machine.execEchoLast b s
  | .echoMismatch b => Sys2Proof.Machine.execEchoMismatch b s
  | .respAck => Sys2Proof.Machine.execRespAck s
  | .respError => Sys2Proof.Machine.execRespError s
  | .respOther b => Sys2Proof.Machine.execRespOther b s
  | .tick => Sys2Proof.Machine.execTick s
  | .setLed d k => Sys2Proof.Machine.execSetLed d k s
  | .clearLed d k => Sys2Proof.Machine.execClearLed d k s
  | .setDisplayNumber v => Sys2Proof.Machine.execSetDisplayNumber v s
  | .clearDisplayNumber => Sys2Proof.Machine.execClearDisplayNumber s
  | .poll => Sys2Proof.Machine.execPoll s
  | .reset => Sys2Proof.Machine.execReset s

end Sys2Proof.Machine
end

