-- ==== Sys2Proof/Machine/Fetch.lean ====
section
/-! DEFINITION. What the machine does next (00_scope.md R10; 30_encoding.md R114; 45_encoder_refresh_api.md R299,
R300, R304): a line of the refresh pass, the end of a pass or of a drain, or the next input event. -/

namespace Sys2Proof.Machine

/-- The next thing to do: run an operation in a state, or only move to a state. -/
inductive Next where
  | run (i : Instr) (s : State)
  | move (s : State)
  deriving DecidableEq, Repr

/-- A refresh pass stands between two frames: its next line is looked at before any event (R298: the gate is not
tested again; R299). -/
def State.passReady (s : State) : Bool := s.pass != none && s.txIdle

/-- The next frame of the refresh pass, R299, or its end. -/
def State.nextInPass (s : State) : Next :=
  match s.lineInstr (s.pass.getD .done) with
  | some (i, l) => .run i { s with pass := some l }
  | none => .move s.endPass

/-- The operation an input event performs. In mode RESETTING no byte is delivered (60_exceptions.md R353): one
that comes is lost (R392). -/
def State.onInput (s : State) : Input → Next
  | .rx b => if s.mode = .run then .run (s.rxInstr b) s else .move s
  | .noByte => .move s.gateTest
  | .tick => .run .tick s
  | .call r => .run r.instr s

/-- What the machine does next. With no input event left it stays as it is (log entry 2). -/
def State.next (s : State) : Next :=
  if s.passReady then s.nextInPass
  else if s.drainOver then .move s.endDrain
  else match s.input with
    | [] => .move s
    | e :: rest => { s with input := rest }.onInput e

/-- Bring the engine to rest in mode RUN, framer Idle, nothing in flight, no call running: where a table word is
read (log entry 9). -/
def State.atRest (s : State) : State :=
  { s with mode := .run, txp := .idle, plen := 0, explen := 0, call := .none, pass := none }

/-- Put a complete frame before the framer: all its bytes but the last in `FB`, the last one next to arrive. -/
def State.withFrame (s : State) (bs : List Byte) : State :=
  { s with
    fb := Vector.ofFn fun i => bs.dropLast.getD i.val s.fb[i]
    plen := Fin.ofNat 8 (bs.length - 1)
    explen := Fin.ofNat 8 bs.length
    input := (bs.getLast?.toList.map Input.rx) ++ s.input }

/-- Owe pedal `d` an LED frame, the next line of a refresh pass. -/
def State.owingLed (s : State) (d : Device) (m8 : Byte) : State :=
  let t := (s.setDev d { s.dev d with present := true, ledStale := true }).setPendLed d m8
  { t with pass := some (match d with
    | .ftsw => .ftswLed
    | .exp => .expLed) }

/-- Owe FTSW a digit frame, the next line of a refresh pass. -/
def State.owingDig (s : State) (v : DisplayNum) : State :=
  { s with
    ftsw := { s.ftsw with base := { s.ftsw.base with present := true }, numStale := true }
    pendNum := v
    pass := some .ftswNum }

/-- Place the operation of a table word where the next step finds it. -/
def State.placeWord (s : State) (nbits w : Nat) : State :=
  let s := s.atRest
  match decodeTableWord nbits w with
  | some (.led d m8) => s.owingLed d m8
  | some (.dig v) => s.owingDig v
  | some (.unknownCmd b) => { s with input := .rx b :: s.input }
  | some (.cmdStart k) => { s with input := .rx (s.cfg.cmd k) :: s.input }
  | some (.stray b) => { s with input := .rx b :: s.input }
  | some _ => s.withFrame (tableBytes nbits w)
  | none => { s with input := (tableBytes nbits w).map Input.rx ++ s.input }

end Sys2Proof.Machine
end

