-- ==== Sys2Proof/Machine/Step.lean ====
section
/-! DEFINITION. One step of the machine: what `State.next` says, an operation run by `exec` or a move. -/

namespace Sys2Proof.Machine

/-- One step (60_exceptions.md R359). -/
def step (s : State) : Host.Outcome State Fault Refusal :=
  match s.next with
  | .run i t => exec i t
  | .move t => .next t

/-- `s` with the operation of a table word placed where the next step finds it. -/
def State.withFetchWord (s : State) (nbits w : Nat) : State := s.placeWord nbits w

end Sys2Proof.Machine
end

