-- ==== Sys2Proof/Safety.lean ====
section
/-! DEFINITION. What holds of a sound state of the engine (10_state.md R38, with what R23, R25, R26, R29 to R32 say
of the fields at rest), and the vocabulary the statements are written in: a frame waiting for its last byte, and
the state a complete frame leaves before its own effect. -/

namespace Sys2Proof.Machine

/-- The framer at rest, R24 and R38(a): Idle, or Accumulating a frame of a known kind whose command byte is in
`FB[0]` and whose later bytes have bit 7 clear (R91). -/
def State.FramerSound (s : State) : Prop :=
  (s.explen = 0 ∧ s.plen = 0) ∨
  ∃ k, s.explen = s.cfg.len k ∧ 1 ≤ s.plen.val ∧ s.plen.val < s.explen.val ∧ s.fb[0] = s.cfg.cmd k ∧
    ∀ j : Fin 7, 1 ≤ j.val → j.val < s.plen.val → top s.fb[j] = false

/-- A frame in flight, R38(d), with the digit frame's target (R296) and the timers' ranges (R25). -/
structure State.FlightSound (s : State) : Prop where
  target : s.txp = .echo ∨ s.txp = .ackw → (s.dev s.tdev).present = true
  length : s.txp = .echo ∨ s.txp = .ackw → 3 ≤ s.tlen.val ∧ s.tidx.val < s.tlen.val
  number : s.txp = .echo ∨ s.txp = .ackw → s.tkind = .num → s.tdev = .ftsw
  waitEcho : s.txp = .echo ∨ s.txp = .rpl → s.tmr < s.cfg.tEcho
  waitAck : s.txp = .ackw → s.tmr < s.cfg.tAck
  framer : s.txp ≠ .idle → s.explen = 0

/-- The device records, R38(b), (c), (f). -/
structure State.DevicesSound (s : State) : Prop where
  counter : ∀ d, (s.dev d).errCnt < s.cfg.errThreshold
  absent : ∀ d, (s.dev d).present = false → s.dev d = DevBase.zero
  absentNum : s.ftsw.base.present = false → s.ftsw.ackNum = none ∧ s.ftsw.numStale = false
  calibrated : s.exp.calValid = true → s.exp.posMin ≤ s.exp.posMax ∧ s.exp.pos ≤ s.exp.posMax - s.exp.posMin

/-- The invariant, R38: it holds at construction and every step keeps it. -/
structure State.Inv (s : State) : Prop where
  config : s.cfg.Valid
  framer : s.FramerSound
  flight : s.FlightSound
  devices : s.DevicesSound
  queue : s.eq.length ≤ s.cfg.queueCap
  quiet : s.quiet ≤ s.cfg.quiesceMs
  mode : s.mode = .run
  pass : s.pass ≠ none → s.explen = 0

/-- The framer waits for the last byte of the frame `bytes`, in `TX_IDLE` and mode RUN: all the bytes before it are
in `FB` (R61, R133, R135). -/
structure State.AwaitsLastOf (s : State) (bytes : List Byte) : Prop where
  mode : s.mode = .run
  phase : s.txp = .idle
  expected : s.explen.val = bytes.length
  stored : s.plen.val + 1 = bytes.length
  held : s.fb.toList.take s.plen.val = bytes.dropLast

/-- The state after the last byte `b` of a frame was stored, the framer re-armed and the reply sent, and before the
frame's own effect (R135, R151, R152). -/
def State.answered (s : State) (b reply : Byte) : State :=
  { s with
    fb := s.fb.setIfInBounds s.plen.val b
    plen := 0
    explen := 0
    txp := .rpl
    tmr := 0
    quiet := 0
    trace := s.trace ++ [.rx b, .tx reply] }

/-- `b` has been received and the transmission given up for `cause`, and before the pedal is charged (R191). -/
def State.gaveUp (s : State) (b : Byte) (cause : TxCause) : State :=
  { s with
    txp := .idle
    quiet := 0
    trace := s.trace ++ [.rx b, .err (.txFailure cause s.tdev)] }

/-- Failures of frames to the pedal `s.tdev`, one after the other, of whatever causes (R226, V-P6). -/
def State.failures (s : State) (causes : List TxCause) : State := causes.foldl State.txFail s

/-- The input event ends the frame in flight as a failure: a wrong echo (R183), an echo timeout (R184), a response
that is not `ACK` (R187, R188), a response timeout (R189). -/
def State.failsOn (s : State) : Input → Prop
  | .rx b => (s.txp = .echo ∧ b ≠ s.tb[s.tidx]) ∨ (s.txp = .ackw ∧ b ≠ s.cfg.ack)
  | .tick => (s.txp = .echo ∧ s.tmr + 1 = s.cfg.tEcho) ∨ (s.txp = .ackw ∧ s.tmr + 1 = s.cfg.tAck)
  | .noByte => False
  | .call _ => False

/-- `n` ticks, one after the other (R196). -/
def State.afterTicks : Nat → State → Host.Outcome State Fault Refusal
  | 0, s => .next s
  | n + 1, s =>
    match exec .tick s with
    | .next t => t.afterTicks n
    | .fault f => .fault f
    | .refused r => .refused r

/-- How many items of a trace are equal to one (R226: "exactly one"). -/
def countItem (t : TraceItem) (tr : List TraceItem) : Nat := (tr.filter (· == t)).length

/-- How many bytes a trace says were sent. -/
def sentBytes : List TraceItem → List Byte
  | [] => []
  | .tx b :: rest => b :: sentBytes rest
  | _ :: rest => sentBytes rest

end Sys2Proof.Machine
end

