-- ==== Sys2Proof/Certificates/Slice0/Obligations.lean ====
section
/-! DEFINITION. The statements for the provers. Each docstring names the rules of spec/ it rests on. Every statement
is about an arbitrary state, hence about every instantiation of the parameters (log entry 1). -/

open Sys2Proof Sys2Proof.Machine

/-! ## Encodings and operands -/

/-- Decoding the encoding of an operation gives it back, with every operand, in every reading context that admits
it (30_encoding.md R91 to R101, R107, R108, R114). A tick and a caller request have no encoding (R113). Only a digit
frame needs the segment table to tell digits apart. -/
def Obligations.DecodeOfEncodeIsTheOperation : Prop :=
  ∀ (c : Config) (ctx : Ctx) (i : Instr),
    c.Valid → (∀ v, i = .dig v → c.SegDistinct) → wellFormed c ctx i = true → ctx ≠ .event →
    decode c ctx (encode c i) = .ok i

/-- Bytes that decode are the encoding of the operation they decode to, and the operation is well formed: no
reserved byte string falls through to a neighbour (R109). -/
def Obligations.DecodedBytesAreTheEncoding : Prop :=
  ∀ (c : Config) (ctx : Ctx) (bs : List Byte) (i : Instr),
    c.Valid → decode c ctx bs = .ok i → wellFormed c ctx i = true ∧ encode c i = bs

/-- Words written out from the spec's vectors (95_test_vectors.md, REF) decode to the operations they stand for. -/
def Obligations.SpecWordsDecode : Prop :=
  decode Config.ref .frame [0x81, 0x01, 0x00, 0x01] = .ok (.init 0x01 [0x00]) ∧
  decode Config.ref .frame [0x82, 0x01, 0x7D, 0x7D, 0x01] = .ok (.btn 0x01 [0x7D, 0x7D]) ∧
  decode Config.ref .frame [0x83, 0x02, 0x02, 0x10, 0x00, 0x10] = .ok (.pos 0x02 [0x02, 0x10, 0x00]) ∧
  decode Config.ref .frame [0x84, 0x01, 0x7D, 0x7D, 0x7F, 0x7F, 0x01] = .ok (.dbtn 0x01 [0x7D, 0x7D, 0x7F, 0x7F]) ∧
  decode Config.ref .frame [0x82, 0x01, 0x7D, 0x7D, 0x00] = .ok (.badsum .btn [0x01, 0x7D, 0x7D, 0x00]) ∧
  decode Config.ref .idle [0x82] = .ok (.cmdStart .btn) ∧
  decode Config.ref .idle [0xF0] = .ok (.unknownCmd 0xF0) ∧
  decode Config.ref .idle [0x7D] = .ok (.stray 0x7D) ∧
  decode Config.ref .ackw [0x81] = .ok .respAck ∧
  decode Config.ref .ackw [0x8E] = .ok .respError ∧
  decode Config.ref .pass [0x90, 0x01, 0x11, 0x05, 0x15] = .ok (.led .ftsw 0x85) ∧
  decode Config.ref .pass [0x91, 0x01, 0x21, 0x6F, 0x23, 0x7F, 0x25, 0x6F, 0x59] = .ok (.dig (some 989))

/-- Every byte the framer receives falls in exactly one class, told by bit 7 and the command table: command,
unknown command or data (R90, R108); the class does not depend on the framer's state, what is done with a data byte
does. -/
def Obligations.ByteFallsInOneClass : Prop :=
  ∀ (c : Config) (b : Byte), c.Valid →
    (∀ k, decode c .idle [b] = .ok (.cmdStart k) ↔ b = c.cmd k) ∧
    (∀ k, decode c .more [b] = .ok (.cmdStart k) ↔ b = c.cmd k) ∧
    (decode c .idle [b] = .ok (.unknownCmd b) ↔ top b = true ∧ ∀ k, b ≠ c.cmd k) ∧
    (decode c .more [b] = .ok (.unknownCmd b) ↔ top b = true ∧ ∀ k, b ≠ c.cmd k) ∧
    (decode c .idle [b] = .ok (.stray b) ↔ top b = false) ∧
    (decode c .more [b] = .ok (.data b) ↔ top b = false)

/-- The checksum (R97): it is the exclusive-or of bytes 1 to n-1; a body followed by its checksum sums to zero; a
flip of one bit of the byte at index 1 or above changes the sum by that bit, a flip at index 0 does not change it,
and the same flip at two indices from 1 on leaves it unchanged. The flips are the spec's own inference (R97:
"Properties a model can prove [derived: from the definition]"). -/
def Obligations.ChecksumSeesOneFlipFromIndexOne : Prop :=
  (∀ (b : Byte) (rest : List Byte), cks (b :: rest) = rest.foldl (· ^^^ ·) 0) ∧
  (∀ (b : Byte) (rest : List Byte), cks (withCks (b :: rest)) = 0) ∧
  (∀ (bs : List Byte) (j k : Nat), 1 ≤ j → j < bs.length → k < 8 →
    cks (bs.modify j (· ^^^ (1#8 <<< k))) = cks bs ^^^ (1#8 <<< k) ∧
    cks (bs.modify j (· ^^^ (1#8 <<< k))) ≠ cks bs) ∧
  (∀ (bs : List Byte) (k : Nat), cks (bs.modify 0 (· ^^^ (1#8 <<< k))) = cks bs) ∧
  (∀ (bs : List Byte) (j l k : Nat), 1 ≤ j → j < bs.length → 1 ≤ l → l < bs.length → k < 8 →
    cks ((bs.modify j (· ^^^ (1#8 <<< k))).modify l (· ^^^ (1#8 <<< k))) = cks bs)

/-- The values of assembled operands: the 14-bit position (R102), the 16-bit combination (R103), and the address
and data byte of a set-register sub-message (R104). -/
def Obligations.OperandsAssembleByValue : Prop :=
  (∀ high low : Byte, (pos14 high low).toNat = (high.toNat % 128) * 128 + low.toNat % 128) ∧
  (∀ upper lower : Byte, (combo upper lower).toNat = upper.toNat * 256 + lower.toNat) ∧
  (∀ base v : Byte, (splitAddr base v).toNat = (base.toNat + v.toNat / 128) % 256 ∧
    (splitData v).toNat = v.toNat % 128)

/-- The segment patterns of a display number (R106): with leading-zero suppression the hundreds digit shows from 100
on and the tens digit from 10 on, without it both always show; the ones digit always shows; `BLANK` is three blank
digits. -/
def Obligations.NumberShowsAsThreeDigits : Prop :=
  ∀ (c : Config) (v : Fin 1000),
    c.patterns (some v) =
      (if c.lzSuppress = true ∧ v.val < 100 then c.segBlank else c.seg (v.val / 100),
       if c.lzSuppress = true ∧ v.val < 10 then c.segBlank else c.seg (v.val / 10 % 10),
       c.seg (v.val % 10)) ∧
    c.patterns none = (c.segBlank, c.segBlank, c.segBlank)

/-! ## The framer -/

/-- A known command byte starts a frame in any framer state (R131): stored as `FB[0]`, `FB[1..6]` kept, a frame in
progress dropped with no reply and no error (R136). -/
def Obligations.CommandByteStartsFrame : Prop :=
  ∀ (s : State) (k : Kind), s.mode = .run → s.txp = .idle →
    exec (.cmdStart k) s = .next { s with
      fb := s.fb.set 0 (s.cfg.cmd k)
      plen := 1
      explen := s.cfg.len k
      quiet := 0
      trace := s.trace ++ [.rx (s.cfg.cmd k)] }

/-- An unknown command byte (R132, R342): the framer is Idle afterwards, `FB` is not written, the error is raised,
no reply is sent and no event is pushed. -/
def Obligations.UnknownCommandIdlesFramer : Prop :=
  ∀ (s : State) (b : Byte), s.mode = .run → s.txp = .idle → top b = true → s.cfg.cmdKind b = none →
    exec (.unknownCmd b) s = .next { s with
      plen := 0
      explen := 0
      quiet := 0
      trace := s.trace ++ [.rx b, .err (.unknownCommand b)] }

/-- A data byte that does not complete the frame is stored at `FB[plen]` and counted (R133). -/
def Obligations.DataByteIsAppended : Prop :=
  ∀ (s : State) (b : Byte), s.mode = .run → s.txp = .idle → top b = false →
    s.plen.val + 1 < s.explen.val →
    exec (.data b) s = .next { s with
      fb := s.fb.setIfInBounds s.plen.val b
      plen := s.plen + 1
      quiet := 0
      trace := s.trace ++ [.rx b] }

/-- A data byte that completes a frame re-arms the framer and runs the decoder on it in the same operation (R135,
R160): what appending it does is what the frame's own operation does. That a frame's row is the whole operation of
the event that delivers its last byte is the model's choice, log entry 10. -/
def Obligations.CompletingByteRunsTheFrame : Prop :=
  ∀ (s : State) (b : Byte) (i : Instr), s.cfg.Valid → s.mode = .run → s.txp = .idle → top b = false →
    s.plen.val + 1 = s.explen.val → decode s.cfg .frame (s.partialFrame ++ [b]) = .ok i →
    exec (.data b) s = exec i s

/-- A stray byte is discarded with a framing error and no other effect (R134, R341). -/
def Obligations.StrayByteIsDiscarded : Prop :=
  ∀ (s : State) (b : Byte), s.mode = .run → s.txp = .idle → top b = false → ¬ s.plen.val < s.explen.val →
    exec (.stray b) s = .next { s with
      quiet := 0
      trace := s.trace ++ [.rx b, .err (.strayByte b)] }

/-! ## Complete frames, replies, dispatch -/

/-- A valid INIT frame with a pedal's identifier is acknowledged and zeroes that pedal's record, marks it present
and its caches stale, and pushes one online event, whatever the record was (R155, R221). The other pedal's record is
untouched. -/
def Obligations.InitBringsPedalOnline : Prop :=
  ∀ (s : State) (id : Byte) (payload : List Byte),
    wellFormed s.cfg .frame (.init id payload) = true → s.AwaitsLastOf (encode s.cfg (.init id payload)) →
    (s.cfg.devOf id = some .ftsw →
      exec (.init id payload) s = .next (State.push
        { s.answered (xorAll (id :: payload)) s.cfg.ack with
          ftsw := ⟨⟨true, 0, 0x00, true⟩, none, true, Vector.replicate 4 false⟩ } (.deviceOnline .ftsw))) ∧
    (s.cfg.devOf id = some .exp →
      exec (.init id payload) s = .next (State.push
        { s.answered (xorAll (id :: payload)) s.cfg.ack with
          exp := ⟨⟨true, 0, 0x00, true⟩, false, 0, 0, false, 0⟩ } (.deviceOnline .exp)))

/-- A valid INIT frame whose identifier is neither pedal's is acknowledged and otherwise ignored (R155, R109(d)). -/
def Obligations.InitOfUnknownIdentifierIsOnlyAcknowledged : Prop :=
  ∀ (s : State) (id : Byte) (payload : List Byte),
    wellFormed s.cfg .frame (.init id payload) = true → s.AwaitsLastOf (encode s.cfg (.init id payload)) →
    s.cfg.devOf id = none →
    exec (.init id payload) s = .next (s.answered (xorAll (id :: payload)) s.cfg.ack)

/-- A valid BTN frame (R156, R253): acknowledged; a mapped combination sets its button and pushes its edge, an
unmapped one does nothing. The identifier and the presence flag are not examined. -/
def Obligations.BtnFrameDecodesItsCombination : Prop :=
  ∀ (s : State) (id : Byte) (payload : List Byte), s.cfg.Valid →
    wellFormed s.cfg .frame (.btn id payload) = true → s.AwaitsLastOf (encode s.cfg (.btn id payload)) →
    let frame := encode s.cfg (.btn id payload)
    let t := s.answered (xorAll (id :: payload)) s.cfg.ack
    let x := combo (frame.getD s.cfg.offBtn 0) (frame.getD (s.cfg.offBtn + 1) 0)
    (s.cfg.button x = none → exec (.btn id payload) s = .next t) ∧
    (∀ e, s.cfg.button x = some e → exec (.btn id payload) s = .next ((t.applyEdge e).push (.edge e)))

/-- A valid DBTN frame (R157, R256): acknowledged; the marker always, then an edge for each mapped sub-field, in
order. -/
def Obligations.DbtnFrameDecodesBothCombinations : Prop :=
  ∀ (s : State) (id : Byte) (payload : List Byte), s.cfg.Valid →
    wellFormed s.cfg .frame (.dbtn id payload) = true → s.AwaitsLastOf (encode s.cfg (.dbtn id payload)) →
    let frame := encode s.cfg (.dbtn id payload)
    let t := (s.answered (xorAll (id :: payload)) s.cfg.ack).push .doubleButton
    let xa := combo (frame.getD s.cfg.offDbtnA 0) (frame.getD (s.cfg.offDbtnA + 1) 0)
    let xb := combo (frame.getD s.cfg.offDbtnB 0) (frame.getD (s.cfg.offDbtnB + 1) 0)
    (s.cfg.button xa = none → s.cfg.button xb = none → exec (.dbtn id payload) s = .next t) ∧
    (∀ e, s.cfg.button xa = some e → s.cfg.button xb = none →
      exec (.dbtn id payload) s = .next ((t.applyEdge e).push (.edge e))) ∧
    (∀ f, s.cfg.button xa = none → s.cfg.button xb = some f →
      exec (.dbtn id payload) s = .next ((t.applyEdge f).push (.edge f))) ∧
    (∀ e f, s.cfg.button xa = some e → s.cfg.button xb = some f →
      exec (.dbtn id payload) s = .next ((((t.applyEdge e).push (.edge e)).applyEdge f).push (.edge f)))

/-- A valid POS frame (R158, R257): acknowledged; the first reading sets minimum and maximum to itself, a later one
widens them; the reported position is the reading less the minimum, and one position event is pushed. -/
def Obligations.PosFrameReportsAboveMinimum : Prop :=
  ∀ (s : State) (id : Byte) (payload : List Byte), s.cfg.Valid →
    wellFormed s.cfg .frame (.pos id payload) = true → s.AwaitsLastOf (encode s.cfg (.pos id payload)) →
    let frame := encode s.cfg (.pos id payload)
    let raw := pos14 (frame.getD s.cfg.offPosHi 0) (frame.getD s.cfg.offPosLo 0)
    let low := if s.exp.calValid = true ∧ s.exp.posMin < raw then s.exp.posMin else raw
    let high := if s.exp.calValid = true ∧ raw < s.exp.posMax then s.exp.posMax else raw
    exec (.pos id payload) s = .next (State.push
      { s.answered (xorAll (id :: payload)) s.cfg.ack with
        exp := ⟨s.exp.base, s.exp.btn1, low, high, true, raw - low⟩ } (.position (raw - low))) ∧
    low ≤ raw ∧ (raw - low).toNat = raw.toNat - low.toNat

/-- A complete frame with a bad checksum is answered with `ERROR`, raises `ChecksumError` and changes nothing else:
no device record, no queue (R152, R343). -/
def Obligations.BadChecksumIsAnsweredWithError : Prop :=
  ∀ (s : State) (k : Kind) (body : List Byte),
    wellFormed s.cfg .frame (.badsum k body) = true → s.AwaitsLastOf (encode s.cfg (.badsum k body)) →
    exec (.badsum k body) s = .next
      { s.answered (body.getLastD 0) s.cfg.error with
        trace := s.trace ++ [.rx (body.getLastD 0), .tx s.cfg.error, .err .checksumError] }

/-- Sending a reply byte starts the reply phase (R151, R152); with it `ERROR` raises `ChecksumError`. -/
def Obligations.ReplyStartsReplyPhase : Prop :=
  ∀ s : State, s.mode = .run → s.txp = .idle → s.explen = 0 →
    exec .replyAck s = .next { s with txp := .rpl, tmr := 0, trace := s.trace ++ [.tx s.cfg.ack] } ∧
    exec .replyErr s = .next
      { s with txp := .rpl, tmr := 0, trace := s.trace ++ [.tx s.cfg.error, .err .checksumError] }

/-- The echo of a reply is discarded whatever its value (R153). -/
def Obligations.ReplyEchoIsDiscarded : Prop :=
  ∀ (s : State) (b : Byte), s.mode = .run → s.txp = .rpl →
    exec (.rplEcho b) s = .next { s with txp := .idle, quiet := 0, trace := s.trace ++ [.rx b] }

/-- A button edge writes its own button bit and nothing else (R255). -/
def Obligations.EdgeWritesItsOwnButton : Prop :=
  ∀ (s : State) (k : Fin 4),
    s.applyEdge (.ftswDown k) = { s with ftsw := { s.ftsw with btn := (s.applyEdge (.ftswDown k)).ftsw.btn } } ∧
    s.applyEdge (.ftswUp k) = { s with ftsw := { s.ftsw with btn := (s.applyEdge (.ftswUp k)).ftsw.btn } } ∧
    (∀ j : Fin 4, (s.applyEdge (.ftswDown k)).ftsw.btn[j] = if j = k then true else s.ftsw.btn[j]) ∧
    (∀ j : Fin 4, (s.applyEdge (.ftswUp k)).ftsw.btn[j] = if j = k then false else s.ftsw.btn[j]) ∧
    s.applyEdge .expDown = { s with exp := { s.exp with btn1 := true } } ∧
    s.applyEdge .expUp = { s with exp := { s.exp with btn1 := false } }

/-! ## The event queue -/

/-- A push into a queue with room appends the event; into a full queue it leaves every state unchanged and raises
`QueueOverflow` (R251, R345). -/
def Obligations.PushAppendsOrDropsNewest : Prop :=
  ∀ (s : State) (e : Event),
    (s.eq.length < s.cfg.queueCap →
      s.push e = { s with eq := s.eq ++ [e], trace := s.trace ++ [.ev e] }) ∧
    (s.cfg.queueCap ≤ s.eq.length →
      s.push e = { s with trace := s.trace ++ [.drop e, .err (.queueOverflow e)] })

/-- Of any events pushed with no pop between them, the queue keeps the first ones in order up to its capacity, and
drops every further one (R260, the spec's own inference, "[derived: from rules R251, R252]"). -/
def Obligations.QueueKeepsTheFirstEvents : Prop :=
  ∀ (s : State) (es : List Event), s.eq.length ≤ s.cfg.queueCap →
    (es.foldl State.push s).eq = (s.eq ++ es).take s.cfg.queueCap

/-! ## The transmitter -/

/-- LED starts the LED frame (R295, R180, R181, R100, R104): command byte, identifier, register address moved by bit
7 of the mask, its seven low bits, and their checksum are stored, the rest of `TB` kept, the first byte sent. -/
def Obligations.LedFrameIsStarted : Prop :=
  ∀ (s : State) (d : Device) (m8 : Byte),
    s.mode = .run → s.txp = .idle → s.explen = 0 → (s.dev d).present = true →
    let addr := if m8.toNat < 128 then s.cfg.ledReg d else s.cfg.ledReg d + 1
    let data := m8 &&& 0x7F
    ∃ tb : Vector Byte 9,
      tb.toList = [s.cfg.cmdOutLed, s.cfg.idOf d, addr, data, s.cfg.idOf d ^^^ addr ^^^ data] ++ s.tb.toList.drop 5 ∧
      exec (.led d m8) s = .next { s with
        tb := tb
        tlen := 5
        tidx := 0
        tdev := d
        tval := .led m8
        txp := .echo
        tmr := 0
        trace := s.trace ++ [.tx s.cfg.cmdOutLed] }

/-- DIG starts the digit-display frame to FTSW (R296, R180, R181, R101, R104): three sub-messages, hundreds, tens,
ones, always all three. -/
def Obligations.DigitFrameIsStarted : Prop :=
  ∀ (s : State) (v : DisplayNum),
    s.mode = .run → s.txp = .idle → s.explen = 0 → s.ftsw.base.present = true →
    let p := s.cfg.patterns v
    let addr := fun (reg pat : Byte) => if pat.toNat < 128 then reg else reg + 1
    let body := [s.cfg.idFtsw, addr s.cfg.digRegH p.1, p.1 &&& 0x7F, addr s.cfg.digRegT p.2.1, p.2.1 &&& 0x7F,
      addr s.cfg.digRegO p.2.2, p.2.2 &&& 0x7F]
    ∃ tb : Vector Byte 9,
      tb.toList = s.cfg.cmdOutDig :: body ++ [xorAll body] ∧
      exec (.dig v) s = .next { s with
        tb := tb
        tlen := 9
        tidx := 0
        tdev := .ftsw
        tval := .num v
        txp := .echo
        tmr := 0
        trace := s.trace ++ [.tx s.cfg.cmdOutDig] }

/-- A start whose precondition fails is refused: no state changes, nothing is sent, no failure is counted (R194). -/
def Obligations.RefusedStartChangesNothing : Prop :=
  ∀ (s : State) (m8 : Byte) (v : DisplayNum),
    (∀ d, s.mode ≠ .run ∨ s.txp ≠ .idle ∨ s.explen ≠ 0 ∨ (s.dev d).present = false →
      exec (.led d m8) s = .next s) ∧
    (s.mode ≠ .run ∨ s.txp ≠ .idle ∨ s.explen ≠ 0 ∨ s.ftsw.base.present = false → exec (.dig v) s = .next s)

/-- The echo of a byte that is not the last lets the next one out (R182). -/
def Obligations.MatchedEchoSendsNextByte : Prop :=
  ∀ (s : State) (h : s.tidx.val + 1 < 9), s.mode = .run → s.txp = .echo → s.tidx.val + 1 < s.tlen.val →
    exec (.echoOk s.tb[s.tidx]) s = .next { s with
      tidx := ⟨s.tidx.val + 1, h⟩
      tmr := 0
      quiet := 0
      trace := s.trace ++ [.rx s.tb[s.tidx], .tx s.tb[s.tidx.val + 1]] }

/-- The echo of the checksum byte ends the echo phase: the response is awaited (R185; that the checksum's echo is
verified too is the spec's own inference, `[derived: from "each sent byte must be echo-verified"]`). -/
def Obligations.LastEchoAwaitsResponse : Prop :=
  ∀ s : State, s.mode = .run → s.txp = .echo → s.tidx.val + 1 = s.tlen.val →
    exec (.echoLast s.tb[s.tidx]) s = .next { s with
      txp := .ackw
      tmr := 0
      quiet := 0
      trace := s.trace ++ [.rx s.tb[s.tidx]] }

/-- A wrong echo, an ERROR response or any other response byte gives the frame up and, below the threshold, counts
one failure against the pedal it was for; no acknowledged cache changes (R183, R187, R188, R191, R222). -/
def Obligations.FailureBelowThresholdIsCounted : Prop :=
  ∀ s : State, s.mode = .run → (s.dev s.tdev).errCnt + 1 < s.cfg.errThreshold →
    let counted := { s.dev s.tdev with errCnt := (s.dev s.tdev).errCnt + 1 }
    (∀ b, s.txp = .echo → b ≠ s.tb[s.tidx] →
      exec (.echoMismatch b) s = .next ((s.gaveUp b .echoMismatch).setDev s.tdev counted)) ∧
    (s.txp = .ackw →
      exec .respError s = .next ((s.gaveUp s.cfg.error .errorReply).setDev s.tdev counted)) ∧
    (∀ b, s.txp = .ackw → b ≠ s.cfg.ack → b ≠ s.cfg.error →
      exec (.respOther b) s = .next ((s.gaveUp b .badReply).setDev s.tdev counted))

/-- The same failures when the counter would reach the threshold evict the pedal: its record is zeroed and one
offline event pushed (R183, R187, R188, R191, R223). No counter stands at or above the threshold (`State.Inv`). -/
def Obligations.FailureAtThresholdEvicts : Prop :=
  ∀ s : State, s.mode = .run → (s.dev s.tdev).errCnt + 1 = s.cfg.errThreshold →
    let evicted := fun t : State =>
      (match s.tdev with
        | .ftsw => { t with ftsw := ⟨⟨false, 0, 0x00, false⟩, none, false, Vector.replicate 4 false⟩ }
        | .exp => { t with exp := ⟨⟨false, 0, 0x00, false⟩, false, 0, 0, false, 0⟩ }).push (.deviceOffline s.tdev)
    (∀ b, s.txp = .echo → b ≠ s.tb[s.tidx] →
      exec (.echoMismatch b) s = .next (evicted (s.gaveUp b .echoMismatch))) ∧
    (s.txp = .ackw → exec .respError s = .next (evicted (s.gaveUp s.cfg.error .errorReply))) ∧
    (∀ b, s.txp = .ackw → b ≠ s.cfg.ack → b ≠ s.cfg.error →
      exec (.respOther b) s = .next (evicted (s.gaveUp b .badReply)))

/-- `ACK` in the response phase (R186, R190, R224): the captured value becomes the acknowledged one and is no longer
stale, the pedal's failure counter is cleared, no event is pushed, and the byte does not reach the framer. -/
def Obligations.AckConfirmsTheCapturedValue : Prop :=
  ∀ s : State, s.mode = .run → s.txp = .ackw →
    let t := { s with txp := .idle, quiet := 0, trace := s.trace ++ [.rx s.cfg.ack] }
    (∀ m8, s.tval = .led m8 →
      exec .respAck s = .next (State.setDev t s.tdev ⟨(s.dev s.tdev).present, 0, m8, false⟩)) ∧
    (∀ v, s.tval = .num v → s.tdev = .ftsw →
      exec .respAck s = .next { t with ftsw :=
        { s.ftsw with base := { s.ftsw.base with errCnt := 0 }, ackNum := v, numStale := false } }) ∧
    (∀ v, s.tval = .num v → s.tdev = .exp →
      exec .respAck s = .next { t with
        exp := { s.exp with base := { s.exp.base with errCnt := 0 } }
        ftsw := { s.ftsw with ackNum := v, numStale := false } })

/-- A tick (R192, R32): the silence counter saturates; in a waiting phase the timer advances, and at its bound the
phase ends: a reply's echo is given up without consequence (R153), an echo (R184) or a response (R189) as a
transmit failure. That a wait ends at exactly that tick and never before is the model's choice, log entry 6: counting
whole ticks is R192's "this spec's reading", and it allows another. -/
def Obligations.TickAdvancesOrTimesOut : Prop :=
  ∀ s : State,
    let t := { s with
      quiet := if s.quiet < s.cfg.quiesceMs then s.quiet + 1 else s.quiet
      trace := s.trace ++ [.tick] }
    (s.txp = .idle → exec .tick s = .next t) ∧
    (s.txp = .rpl → s.tmr + 1 ≠ s.cfg.tEcho → exec .tick s = .next { t with tmr := s.tmr + 1 }) ∧
    (s.txp = .rpl → s.tmr + 1 = s.cfg.tEcho → exec .tick s = .next { t with tmr := s.tmr + 1, txp := .idle }) ∧
    (s.txp = .echo → s.tmr + 1 ≠ s.cfg.tEcho → exec .tick s = .next { t with tmr := s.tmr + 1 }) ∧
    (s.txp = .echo → s.tmr + 1 = s.cfg.tEcho →
      exec .tick s = .next (State.txFail { t with tmr := s.tmr + 1 } .echoTimeout)) ∧
    (s.txp = .ackw → s.tmr + 1 ≠ s.cfg.tAck → exec .tick s = .next { t with tmr := s.tmr + 1 }) ∧
    (s.txp = .ackw → s.tmr + 1 = s.cfg.tAck →
      exec .tick s = .next (State.txFail { t with tmr := s.tmr + 1 } .ackTimeout))

/-- A transmit failure of any cause raises it, abandons the frame, and counts the failure or evicts the pedal (R191,
R222, R223); all five causes have the same effect on state. -/
def Obligations.TxFailureHasOneEffect : Prop :=
  ∀ (s : State) (cause : TxCause),
    let t := { s with txp := .idle, trace := s.trace ++ [.err (.txFailure cause s.tdev)] }
    ((s.dev s.tdev).errCnt + 1 < s.cfg.errThreshold →
      s.txFail cause = State.setDev t s.tdev { s.dev s.tdev with errCnt := (s.dev s.tdev).errCnt + 1 }) ∧
    ((s.dev s.tdev).errCnt + 1 = s.cfg.errThreshold → s.tdev = .ftsw →
      s.txFail cause = State.push
        { t with ftsw := ⟨⟨false, 0, 0x00, false⟩, none, false, Vector.replicate 4 false⟩ } (.deviceOffline .ftsw)) ∧
    ((s.dev s.tdev).errCnt + 1 = s.cfg.errThreshold → s.tdev = .exp →
      s.txFail cause = State.push
        { t with exp := ⟨⟨false, 0, 0x00, false⟩, false, 0, 0, false, 0⟩ } (.deviceOffline .exp))

/-- From every waiting phase, as many ticks as the longer of the two bounds, with no byte between them, bring the
transmitter to `TX_IDLE` (R196: "after at most max(T_ECHO, T_ACK) tick events with no rx event the phase
changes", the spec's own inference, "[derived: from rules R182 to R192]"). -/
def Obligations.TicksEndEveryWait : Prop :=
  ∀ s : State, s.FlightSound → s.txp ≠ .idle →
    ∃ n ≤ max s.cfg.tEcho s.cfg.tAck, ∃ t, s.afterTicks n = .next t ∧ t.txp = .idle

/-- After exactly `ERR_THRESHOLD` consecutive failures of frames to a present pedal, of whatever mixture of causes, its
whole record is zeroed and exactly one offline event has been pushed; after fewer its record is as it was but for the
counter, which is their number, and none has (R226, V-P6). The other pedal's record is untouched (R228). Premises: its
counter starts at 0 and the queue has room for the event. The spec's own inference ("[derived: from
rules R222 to R224]") from its reading of the document's property. -/
def Obligations.ThresholdFailuresEvictOnce : Prop :=
  ∀ (s : State) (causes : List TxCause),
    (s.dev s.tdev).present = true → (s.dev s.tdev).errCnt = 0 → s.eq.length < s.cfg.queueCap →
    1 ≤ s.cfg.errThreshold → causes.length = s.cfg.errThreshold →
    (∀ k < s.cfg.errThreshold,
      let t := s.failures (causes.take k)
      (s.tdev = .ftsw →
        t.ftsw = { s.ftsw with base := { s.ftsw.base with errCnt := k } } ∧ t.exp = s.exp) ∧
      (s.tdev = .exp →
        t.exp = { s.exp with base := { s.exp.base with errCnt := k } } ∧ t.ftsw = s.ftsw) ∧
      t.eq = s.eq ∧
      countItem (.ev (.deviceOffline s.tdev)) t.trace = countItem (.ev (.deviceOffline s.tdev)) s.trace) ∧
    let t := s.failures causes
    (s.tdev = .ftsw →
      t.ftsw = ⟨⟨false, 0, 0x00, false⟩, none, false, Vector.replicate 4 false⟩ ∧ t.exp = s.exp) ∧
    (s.tdev = .exp →
      t.exp = ⟨⟨false, 0, 0x00, false⟩, false, 0, 0, false, 0⟩ ∧ t.ftsw = s.ftsw) ∧
    t.eq = s.eq ++ [.deviceOffline s.tdev] ∧
    countItem (.ev (.deviceOffline s.tdev)) t.trace = countItem (.ev (.deviceOffline s.tdev)) s.trace + 1

/-! ## Caller requests -/

/-- `set_led` and `clear_led` write one bit of the owning device's pending mask, in any mode and whatever the
device's presence, and send nothing (R290, R291). -/
def Obligations.LedRequestWritesOnePendingBit : Prop :=
  ∀ (s : State) (d : Device) (k : Fin 8),
    (∃ v : Byte, (∀ j : Fin 8, v.getLsbD j = if j = k then true else (s.pendLed d).getLsbD j) ∧
      exec (.setLed d k) s =
        .next (State.setPendLed { s with trace := s.trace ++ [.call (.setLed d k)] } d v)) ∧
    (∃ v : Byte, (∀ j : Fin 8, v.getLsbD j = if j = k then false else (s.pendLed d).getLsbD j) ∧
      exec (.clearLed d k) s =
        .next (State.setPendLed { s with trace := s.trace ++ [.call (.clearLed d k)] } d v))

/-- `set_display_number(v)` sets the pending number to `v mod 1000`, for every natural number, and
`clear_display_number()` sets it to `BLANK` (R292, R293). -/
def Obligations.NumberRequestsWritePendingNumber : Prop :=
  ∀ (s : State) (v : Nat),
    (∃ n : Fin 1000, n.val = v % 1000 ∧
      exec (.setDisplayNumber v) s = .next { s with
        pendNum := some n
        trace := s.trace ++ [.call (.setDisplayNumber v)] }) ∧
    exec .clearDisplayNumber s = .next { s with
      pendNum := none
      trace := s.trace ++ [.call .clearDisplayNumber] }

/-- `poll` with no byte waiting and no reply's echo awaited (R300, R298, R252): if the gate's conditions hold and a
cache is dirty a refresh pass begins; otherwise the oldest queued event, or `None`, is returned at once. In mode
RESETTING it returns `None`. With a byte waiting or an echo awaited the drain goes on with the next event. Under the
hardware scheduling it is the pop alone, whatever the phase and the bytes waiting (R304). The field `sched` is the
model's choice, log entry 21; that a poll while another runs is the pop too, log entry 4. -/
def Obligations.PollPassesOrPops : Prop :=
  ∀ s : State,
    (s.mode = .resetting → exec .poll s = .next { s with trace := s.trace ++ [.call .poll, .ret none] }) ∧
    (s.mode = .run → s.cfg.sched = .software → s.call = .none → s.txp ≠ .rpl → s.byteWaiting = false →
      let open_ := s.txp = .idle ∧ s.explen = 0 ∧ s.eq = [] ∧
        (s.cfg.quiesceMs = 0 ∨ s.quiet = s.cfg.quiesceMs) ∧ s.anyDirty = true
      let t : State := { s.takeNoByte with trace := s.trace ++ [TraceItem.call .poll] }
      (open_ → exec .poll s = .next { t with pass := some .ftswLed, call := .passing }) ∧
      (¬ open_ → s.eq = [] →
        exec .poll s = .next { t with trace := s.trace ++ [TraceItem.call .poll, .ret none] }) ∧
      (¬ open_ → ∀ e rest, s.eq = e :: rest →
        exec .poll s = .next
          { t with eq := rest, trace := s.trace ++ [TraceItem.call .poll, .ret (some e)] })) ∧
    (s.mode = .run → s.cfg.sched = .software → s.call = .none → s.txp = .rpl ∨ s.byteWaiting = true →
      exec .poll s = .next { s with call := .draining, trace := s.trace ++ [.call .poll] }) ∧
    (s.mode = .run → s.cfg.sched = .hardware ∨ s.call ≠ .none →
      (s.eq = [] → exec .poll s = .next { s with trace := s.trace ++ [.call .poll, .ret none] }) ∧
      (∀ e rest, s.eq = e :: rest →
        exec .poll s = .next { s with eq := rest, trace := s.trace ++ [.call .poll, .ret (some e)] }))

/-- The caller's reset request (R391, R392): the link configuration calls in their order, then devices, queue,
framer, transmitter and buffers at their initial values and mode RUN; the pending output state is not changed, no
event is pushed, no byte is sent. That the blocking sequence is one step with its wait as a trace item is the model's
reading, log entry 11; that a poll or a refresh pass in progress stays so is its choice, log entry 4. -/
def Obligations.ResetClearsAllButPending : Prop :=
  ∀ s : State,
    exec .reset s = .next { State.construct s.cfg with
      pendLedFtsw := s.pendLedFtsw
      pendLedExp := s.pendLedExp
      pendNum := s.pendNum
      input := s.input
      call := s.call
      pass := s.pass
      trace := s.trace ++ [.call .reset, .enable false false, .setResetLine .low, .waitMs s.cfg.resetLowMs,
        .setResetLine .receiveCapable, .setBaud s.cfg.baud, .enable true true] }

/-! ## The step -/

/-- A received byte runs the operation its bytes decode to, in the context the phase and the framer give it (R10,
R114, R130). That events are taken from the field `input` is the model's choice, log entry 2. -/
def Obligations.StepRunsTheDecodedByte : Prop :=
  ∀ (s : State) (b : Byte) (rest : List Input) (i : Instr),
    s.input = .rx b :: rest → s.mode = .run → s.pass = none ∨ s.txp ≠ .idle →
    decode s.cfg (s.rxContext b).1 (s.rxContext b).2 = .ok i →
    step s = exec i { s with input := rest }

/-- A tick or a caller request runs its own operation, when no line of a refresh pass and no end of a drain comes
first (R10; the fields `input`, `call` and `pass` are the model's choice, log entries 2 and 4). -/
def Obligations.StepRunsTicksAndRequests : Prop :=
  ∀ (s : State) (rest : List Input),
    s.pass = none ∨ s.txp ≠ .idle → s.call ≠ .draining ∨ s.txp = .rpl →
    (s.input = .tick :: rest → step s = exec .tick { s with input := rest }) ∧
    (∀ r, s.input = .call r :: rest → step s = exec r.instr { s with input := rest })

/-- Between two frames of a refresh pass the next line is looked at before any event: FTSW LED, FTSW number, EXP
LED, each sent only if dirty when its line is reached (R299, R294, R348(e)). The field `pass` that says where the
pass stands is the model's choice, log entry 4. -/
def Obligations.StepRunsRefreshLinesInOrder : Prop :=
  ∀ s : State, s.txp = .idle →
    (s.pass = some .ftswLed → s.ledDirty .ftsw = true →
      step s = exec (.led .ftsw s.pendLedFtsw) { s with pass := some .ftswNum }) ∧
    (s.pass = some .ftswLed ∧ s.ledDirty .ftsw = false ∨ s.pass = some .ftswNum → s.numDirty = true →
      step s = exec (.dig s.pendNum) { s with pass := some .expLed }) ∧
    (s.pass = some .ftswLed ∧ s.ledDirty .ftsw = false ∧ s.numDirty = false ∨
      s.pass = some .ftswNum ∧ s.numDirty = false ∨ s.pass = some .expLed → s.ledDirty .exp = true →
      step s = exec (.led .exp s.pendLedExp) { s with pass := some .done }) ∧
    (∀ l, s.pass = some l → (l = .ftswLed → s.ledDirty .ftsw = false) →
      (l = .ftswLed ∨ l = .ftswNum → s.numDirty = false) → (l ≠ .done → s.ledDirty .exp = false) →
      step s = .next s.endPass)

/-- The end of a refresh pass and of a drain (R299, R300): a poll that waited for the pass pops one event and
returns; a drain that finds no byte waiting tests the gate once, and starts the pass or pops and returns. The fields
`call` and `pass` are the model's choice, log entry 4. -/
def Obligations.PollReturnsOneEvent : Prop :=
  ∀ s : State,
    (s.call ≠ .passing → s.endPass = { s with pass := none }) ∧
    (s.call = .passing → s.eq = [] →
      s.endPass = { s with pass := none, call := .none, trace := s.trace ++ [.ret none] }) ∧
    (∀ e rest, s.call = .passing → s.eq = e :: rest →
      s.endPass = { s with pass := none, call := .none, eq := rest, trace := s.trace ++ [.ret (some e)] }) ∧
    (s.call = .draining → s.txp ≠ .rpl → s.byteWaiting = false → s.pass = none ∨ s.txp ≠ .idle →
      step s = .next s.endDrain) ∧
    (s.gate = true → s.anyDirty = true →
      s.endDrain = { s.takeNoByte with pass := some .ftswLed, call := .passing }) ∧
    (s.gate = false ∨ s.anyDirty = false → s.endDrain = { s.takeNoByte.popRet with call := .none })

/-- The operation a received byte selects is one whose selecting condition holds (R114, R130, R348(b)): it is
performed. The condition's form is the model's choice, log entry 8. -/
def Obligations.SelectedOperationIsTriggered : Prop :=
  ∀ (s : State) (b : Byte), s.cfg.Valid → s.mode = .run → (s.txp = .echo → s.tidx.val < s.tlen.val) →
    s.selects (s.rxInstr b) = true

/-- The engine never stops: every step from every state answers a next state, never a fault or a refusal (R351,
R359). -/
def Obligations.StepAlwaysGoesOn : Prop :=
  ∀ s : State, ∃ t, step s = .next t

/-! ## The whole machine -/

/-- The invariant holds at construction, for every valid instantiation and for the reference one (R37, R38). That
the machine resets under the reference instantiation is the model's choice, log entry 1. -/
def Obligations.ConstructionIsSound : Prop :=
  (∀ c : Config, c.Valid → (State.construct c).Inv) ∧ State.reset.Inv

/-- Every step keeps the invariant (R38): the framer's position, the counters below the threshold, absent devices
zero in the fields of tier 1, a frame in flight only to a present pedal, the queue within its capacity, the
calibration pair ordered: the spec's own inference (R38, "[derived: from the rules cited]"). That a refresh pass runs
only with the framer Idle, and the ranges of the timers, are added by the model (DEDUCED, log entries 4 and 12). -/
def Obligations.StepKeepsInvariant : Prop :=
  ∀ s t : State, s.Inv → step s = .next t → t.Inv

/-- What can change a pedal's presence or its counter, with the event each transition pushes (R220): the last byte of a
valid INIT frame that names the pedal; the `ACK` of a frame in flight to it; the byte or the tick that fails a frame in
flight to it, below the threshold or at it; and the reset request. Nothing else does. The invariant is the premise that
rules out what no run reaches, a counter past the threshold or bytes in `FB` that are no frame's. -/
def Obligations.PresenceChangesOnlyByItsTransitions : Prop :=
  ∀ (s t : State) (d : Device), s.Inv → step s = .next t →
    ((t.dev d).present = (s.dev d).present ∧ (t.dev d).errCnt = (s.dev d).errCnt) ∨
    (∃ id payload rest, wellFormed s.cfg .frame (.init id payload) = true ∧
      s.AwaitsLastOf (encode s.cfg (.init id payload)) ∧ s.input = .rx (xorAll (id :: payload)) :: rest ∧
      s.cfg.devOf id = some d ∧ (t.dev d).present = true ∧ (t.dev d).errCnt = 0 ∧
      t.eq = (s.push (.deviceOnline d)).eq) ∨
    (s.txp = .ackw ∧ s.tdev = d ∧ s.input.head? = some (.rx s.cfg.ack) ∧ (s.dev d).present = true ∧
      t.txp = .idle ∧ (t.dev d).present = true ∧ (t.dev d).errCnt = 0 ∧ t.eq = s.eq) ∨
    (∃ e rest, s.input = e :: rest ∧ s.failsOn e ∧ s.tdev = d ∧ (s.dev d).present = true ∧ t.txp = .idle ∧
      ((s.dev d).errCnt + 1 < s.cfg.errThreshold ∧ (t.dev d).present = true ∧
          (t.dev d).errCnt = (s.dev d).errCnt + 1 ∧ t.eq = s.eq ∨
        (s.dev d).errCnt + 1 = s.cfg.errThreshold ∧ (t.dev d).present = false ∧ (t.dev d).errCnt = 0 ∧
          t.eq = (s.push (.deviceOffline d)).eq)) ∨
    (s.input.head? = some (.call .reset) ∧ (t.dev d).present = false ∧ (t.dev d).errCnt = 0 ∧ t.eq = [])

/-- Between two zeroings of the expression pedal's record the calibration minimum never rises (R258). -/
def Obligations.CalibrationMinimumNeverRises : Prop :=
  ∀ s t : State, step s = .next t → s.exp.calValid = true → t.exp.calValid = true → t.exp.posMin ≤ s.exp.posMin

/-- The pending output state is written by the caller's requests only (R29): INIT, eviction, transmissions and the
reset sequence leave it unchanged. -/
def Obligations.PendingIsWrittenByTheCallerOnly : Prop :=
  ∀ s t : State, step s = .next t →
    (t.pendLedFtsw = s.pendLedFtsw ∧ t.pendLedExp = s.pendLedExp ∧ t.pendNum = s.pendNum) ∨
    (∃ d k, s.input.head? = some (.call (.setLed d k)) ∨ s.input.head? = some (.call (.clearLed d k))) ∨
    (∃ v, s.input.head? = some (.call (.setDisplayNumber v))) ∨
    s.input.head? = some (.call .clearDisplayNumber)

/-- No byte is sent while an echo or a response is awaited, but for the next byte of the frame when the echo awaited
has arrived (R72(b), R74). The trace is only ever extended. -/
def Obligations.NothingIsSentDuringAWait : Prop :=
  ∀ s t : State, step s = .next t → ∃ new, t.trace = s.trace ++ new ∧
    (s.txp ≠ .idle →
      sentBytes new = [] ∨
      s.txp = .echo ∧ s.input.head? = some (.rx s.tb[s.tidx]) ∧ sentBytes new = [t.tb[t.tidx]] ∧
        t.tidx.val = s.tidx.val + 1)

/-- The parameters of the instantiation, its lookup tables among them, are never written (R63, R20). -/
def Obligations.ConfigurationIsConstant : Prop :=
  ∀ s t : State, step s = .next t → t.cfg = s.cfg

/-- While a frame is in progress no refresh pass starts (R298, R397: "A partial frame holds the framer in
Accumulating for ever"), and ticks alone do not end it (R138). -/
def Obligations.PartialFrameHoldsOutput : Prop :=
  ∀ s t : State, step s = .next t → s.explen ≠ 0 → s.pass = none →
    t.pass = none ∧ (s.input.head? = some .tick → t.explen = s.explen ∧ t.plen = s.plen)

/-- An `ACK` byte that reaches the framer, the engine's own late echo or a pedal's late response, starts an INIT
frame (R75, R396). -/
def Obligations.LateAckStartsInitFrame : Prop :=
  ∀ (s : State) (rest : List Input), s.cfg.Valid → s.input = .rx s.cfg.ack :: rest → s.mode = .run →
    s.txp = .idle → s.pass = none →
    step s = .next { s with
      input := rest
      fb := s.fb.set 0 s.cfg.cmdInit
      plen := 1
      explen := s.cfg.lenInit
      quiet := 0
      trace := s.trace ++ [.rx s.cfg.ack] }

/-- A frame delivered byte by byte from any framer state gets exactly one reply, after its last byte: `ACK` if its
checksum is good, `ERROR` if not (R131, R133, R135, R150 to R152; R137 and R160 draw it as the spec's own inference).
A bad one changes no device and no queue. -/
def Obligations.DeliveredFrameGetsOneReply : Prop :=
  ∀ (s : State) (k : Kind) (data : List Byte) (rest : List Input),
    s.cfg.Valid → s.mode = .run → s.txp = .idle → s.pass = none →
    data.all (fun b => !top b) = true → data.length + 1 = (s.cfg.len k).val →
    ∃ t new, Sys2Proof.core.run (s.cfg.len k).val
        { s with input := (s.cfg.cmd k :: data).map Input.rx ++ rest } = .next t ∧
      t.input = rest ∧ t.plen = 0 ∧ t.explen = 0 ∧ t.txp = .rpl ∧
      t.fb.toList.take (s.cfg.len k).val = s.cfg.cmd k :: data ∧
      t.trace = s.trace ++ (s.cfg.cmd k :: data).map TraceItem.rx ++
        [.tx (if xorAll data = 0 then s.cfg.ack else s.cfg.error)] ++ new ∧
      sentBytes new = [] ∧
      (xorAll data ≠ 0 → new = [.err .checksumError] ∧ t.ftsw = s.ftsw ∧ t.exp = s.exp ∧ t.eq = s.eq)

/-! ## Dirty tests, the gate, and events that change nothing -/

/-- The dirty predicates (R294): a cache is dirty when its pedal is present and the cache is stale or the pending value
differs from the acknowledged one; `BLANK` differs from every number, 0 included. -/
def Obligations.DirtyMeansPresentAndUnacknowledged : Prop :=
  ∀ s : State,
    (s.ledDirty .ftsw = true ↔ s.ftsw.base.present = true ∧
      (s.ftsw.base.ledStale = true ∨ s.pendLedFtsw ≠ s.ftsw.base.ackLed)) ∧
    (s.ledDirty .exp = true ↔ s.exp.base.present = true ∧
      (s.exp.base.ledStale = true ∨ s.pendLedExp ≠ s.exp.base.ackLed)) ∧
    (s.numDirty = true ↔ s.ftsw.base.present = true ∧
      (s.ftsw.numStale = true ∨ s.pendNum ≠ s.ftsw.ackNum)) ∧
    (∀ v : Fin 1000, s.ftsw.base.present = true →
      (s.pendNum = none ∧ s.ftsw.ackNum = some v ∨ s.pendNum = some v ∧ s.ftsw.ackNum = none) →
      s.numDirty = true) ∧
    (s.anyDirty = true ↔ s.ledDirty .ftsw = true ∨ s.numDirty = true ∨ s.ledDirty .exp = true)

/-- A pedal that has just come online is owed an LED frame, and FTSW a digit frame, whatever the pending state is (R28,
R221: "even when they equal what the pedal already shows"). -/
def Obligations.OnlinePedalIsRepublished : Prop :=
  ∀ s : State, (∀ d, (s.devOnline d).ledDirty d = true) ∧ (s.devOnline .ftsw).numDirty = true

/-- `try_read_byte` answering `none` outside a drain (R304): under the hardware scheduling, with no pass running, the
gate of R298 open and a cache dirty, it starts a refresh pass; otherwise the answer is consumed and nothing changes. The
event and the field `sched` are the model's choice, log entries 2 and 21. -/
def Obligations.StepOnNoByteTestsTheGate : Prop :=
  ∀ (s : State) (rest : List Input), s.input = .noByte :: rest →
    s.pass = none ∨ s.txp ≠ .idle → s.call ≠ .draining ∨ s.txp = .rpl →
    let open_ := s.cfg.sched = .hardware ∧ s.call = .none ∧ s.pass = none ∧ s.mode = .run ∧ s.txp = .idle ∧
      s.explen = 0 ∧ s.eq = [] ∧ (s.cfg.quiesceMs = 0 ∨ s.quiet = s.cfg.quiesceMs) ∧ s.anyDirty = true
    (open_ → step s = .next { s with input := rest, pass := some .ftswLed }) ∧
    (¬ open_ → step s = .next { s with input := rest })

/-- A byte that comes in mode RESETTING is lost: it has no effect and is not in the trace (R353, R392; that `State` can
stand in that mode between two steps is log entry 11). With no input event left, and no line of a pass or end of a drain
due, nothing changes (the model's choice, log entry 2). -/
def Obligations.LostByteAndEmptyInputChangeNothing : Prop :=
  ∀ s : State, s.pass = none ∨ s.txp ≠ .idle →
    (∀ b rest, s.mode = .resetting → s.input = .rx b :: rest → step s = .next { s with input := rest }) ∧
    (s.call ≠ .draining ∨ s.txp = .rpl → s.input = [] → step s = .next s)

/-- No step starts a refresh pass unless the whole gate of R298 holds before it: mode RUN, `TX_IDLE`, no byte waiting,
the framer Idle, the queue empty, the silence long enough; and some cache is dirty. It starts at its first line. That a
pass with nothing dirty does not begin at all is the model's choice, log entry 4. -/
def Obligations.RefreshPassNeedsTheGate : Prop :=
  ∀ s t : State, step s = .next t → s.pass = none → t.pass ≠ none →
    t.pass = some .ftswLed ∧ s.mode = .run ∧ s.txp = .idle ∧ s.explen = 0 ∧ s.eq = [] ∧
    (s.cfg.quiesceMs = 0 ∨ s.quiet = s.cfg.quiesceMs) ∧ s.anyDirty = true ∧ s.byteWaiting = false ∧
    (∀ rest b, s.call ≠ .draining → s.input ≠ .call .poll :: .rx b :: rest)
end

