-- ==== Sys2Proof/Laws/State.lean ====
section
/-! SUPPORT. One lemma per field an operation leaves alone, and one for each field a primitive operation writes: no
later proof unfolds a record update. -/

namespace Sys2Proof.Machine

/-! `State.emit` -/
@[simp] theorem State.emit_cfg (s : State) (t : TraceItem) : (s.emit t).cfg = s.cfg := rfl
@[simp] theorem State.emit_fb (s : State) (t : TraceItem) : (s.emit t).fb = s.fb := rfl
@[simp] theorem State.emit_plen (s : State) (t : TraceItem) : (s.emit t).plen = s.plen := rfl
@[simp] theorem State.emit_explen (s : State) (t : TraceItem) : (s.emit t).explen = s.explen := rfl
@[simp] theorem State.emit_tb (s : State) (t : TraceItem) : (s.emit t).tb = s.tb := rfl
@[simp] theorem State.emit_txp (s : State) (t : TraceItem) : (s.emit t).txp = s.txp := rfl
@[simp] theorem State.emit_tidx (s : State) (t : TraceItem) : (s.emit t).tidx = s.tidx := rfl
@[simp] theorem State.emit_tlen (s : State) (t : TraceItem) : (s.emit t).tlen = s.tlen := rfl
@[simp] theorem State.emit_tmr (s : State) (t : TraceItem) : (s.emit t).tmr = s.tmr := rfl
@[simp] theorem State.emit_tdev (s : State) (t : TraceItem) : (s.emit t).tdev = s.tdev := rfl
@[simp] theorem State.emit_tval (s : State) (t : TraceItem) : (s.emit t).tval = s.tval := rfl
@[simp] theorem State.emit_ftsw (s : State) (t : TraceItem) : (s.emit t).ftsw = s.ftsw := rfl
@[simp] theorem State.emit_exp (s : State) (t : TraceItem) : (s.emit t).exp = s.exp := rfl
@[simp] theorem State.emit_pendLedFtsw (s : State) (t : TraceItem) : (s.emit t).pendLedFtsw = s.pendLedFtsw := rfl
@[simp] theorem State.emit_pendLedExp (s : State) (t : TraceItem) : (s.emit t).pendLedExp = s.pendLedExp := rfl
@[simp] theorem State.emit_pendNum (s : State) (t : TraceItem) : (s.emit t).pendNum = s.pendNum := rfl
@[simp] theorem State.emit_eq (s : State) (t : TraceItem) : (s.emit t).eq = s.eq := rfl
@[simp] theorem State.emit_quiet (s : State) (t : TraceItem) : (s.emit t).quiet = s.quiet := rfl
@[simp] theorem State.emit_mode (s : State) (t : TraceItem) : (s.emit t).mode = s.mode := rfl
@[simp] theorem State.emit_input (s : State) (t : TraceItem) : (s.emit t).input = s.input := rfl
@[simp] theorem State.emit_call (s : State) (t : TraceItem) : (s.emit t).call = s.call := rfl
@[simp] theorem State.emit_pass (s : State) (t : TraceItem) : (s.emit t).pass = s.pass := rfl
@[simp] theorem State.raise_eq (s : State) (e : ErrorCat) : s.raise e = s.emit (.err e) := rfl
@[simp] theorem State.busSend_eq (s : State) (b : Byte) : s.busSend b = s.emit (.tx b) := rfl
@[simp] theorem State.emit_trace (s : State) (t : TraceItem) : (s.emit t).trace = s.trace ++ [t] := rfl

/-! `State.rxEvent` -/
@[simp] theorem State.rxEvent_cfg (s : State) (b : Byte) : (s.rxEvent b).cfg = s.cfg := rfl
@[simp] theorem State.rxEvent_fb (s : State) (b : Byte) : (s.rxEvent b).fb = s.fb := rfl
@[simp] theorem State.rxEvent_plen (s : State) (b : Byte) : (s.rxEvent b).plen = s.plen := rfl
@[simp] theorem State.rxEvent_explen (s : State) (b : Byte) : (s.rxEvent b).explen = s.explen := rfl
@[simp] theorem State.rxEvent_tb (s : State) (b : Byte) : (s.rxEvent b).tb = s.tb := rfl
@[simp] theorem State.rxEvent_txp (s : State) (b : Byte) : (s.rxEvent b).txp = s.txp := rfl
@[simp] theorem State.rxEvent_tidx (s : State) (b : Byte) : (s.rxEvent b).tidx = s.tidx := rfl
@[simp] theorem State.rxEvent_tlen (s : State) (b : Byte) : (s.rxEvent b).tlen = s.tlen := rfl
@[simp] theorem State.rxEvent_tmr (s : State) (b : Byte) : (s.rxEvent b).tmr = s.tmr := rfl
@[simp] theorem State.rxEvent_tdev (s : State) (b : Byte) : (s.rxEvent b).tdev = s.tdev := rfl
@[simp] theorem State.rxEvent_tval (s : State) (b : Byte) : (s.rxEvent b).tval = s.tval := rfl
@[simp] theorem State.rxEvent_ftsw (s : State) (b : Byte) : (s.rxEvent b).ftsw = s.ftsw := rfl
@[simp] theorem State.rxEvent_exp (s : State) (b : Byte) : (s.rxEvent b).exp = s.exp := rfl
@[simp] theorem State.rxEvent_pendLedFtsw (s : State) (b : Byte) : (s.rxEvent b).pendLedFtsw = s.pendLedFtsw := rfl
@[simp] theorem State.rxEvent_pendLedExp (s : State) (b : Byte) : (s.rxEvent b).pendLedExp = s.pendLedExp := rfl
@[simp] theorem State.rxEvent_pendNum (s : State) (b : Byte) : (s.rxEvent b).pendNum = s.pendNum := rfl
@[simp] theorem State.rxEvent_eq (s : State) (b : Byte) : (s.rxEvent b).eq = s.eq := rfl
@[simp] theorem State.rxEvent_mode (s : State) (b : Byte) : (s.rxEvent b).mode = s.mode := rfl
@[simp] theorem State.rxEvent_input (s : State) (b : Byte) : (s.rxEvent b).input = s.input := rfl
@[simp] theorem State.rxEvent_call (s : State) (b : Byte) : (s.rxEvent b).call = s.call := rfl
@[simp] theorem State.rxEvent_pass (s : State) (b : Byte) : (s.rxEvent b).pass = s.pass := rfl
@[simp] theorem State.rxEvent_quiet (s : State) (b : Byte) : (s.rxEvent b).quiet = 0 := rfl
@[simp] theorem State.rxEvent_trace (s : State) (b : Byte) : (s.rxEvent b).trace = s.trace ++ [.rx b] := rfl

/-! `State.setDev` -/
@[simp] theorem State.setDev_cfg (s : State) (d : Device) (v : DevBase) : (s.setDev d v).cfg = s.cfg := by cases d <;> rfl
@[simp] theorem State.setDev_fb (s : State) (d : Device) (v : DevBase) : (s.setDev d v).fb = s.fb := by cases d <;> rfl
@[simp] theorem State.setDev_plen (s : State) (d : Device) (v : DevBase) : (s.setDev d v).plen = s.plen := by cases d <;> rfl
@[simp] theorem State.setDev_explen (s : State) (d : Device) (v : DevBase) : (s.setDev d v).explen = s.explen := by cases d <;> rfl
@[simp] theorem State.setDev_tb (s : State) (d : Device) (v : DevBase) : (s.setDev d v).tb = s.tb := by cases d <;> rfl
@[simp] theorem State.setDev_txp (s : State) (d : Device) (v : DevBase) : (s.setDev d v).txp = s.txp := by cases d <;> rfl
@[simp] theorem State.setDev_tidx (s : State) (d : Device) (v : DevBase) : (s.setDev d v).tidx = s.tidx := by cases d <;> rfl
@[simp] theorem State.setDev_tlen (s : State) (d : Device) (v : DevBase) : (s.setDev d v).tlen = s.tlen := by cases d <;> rfl
@[simp] theorem State.setDev_tmr (s : State) (d : Device) (v : DevBase) : (s.setDev d v).tmr = s.tmr := by cases d <;> rfl
@[simp] theorem State.setDev_tdev (s : State) (d : Device) (v : DevBase) : (s.setDev d v).tdev = s.tdev := by cases d <;> rfl
@[simp] theorem State.setDev_tval (s : State) (d : Device) (v : DevBase) : (s.setDev d v).tval = s.tval := by cases d <;> rfl
@[simp] theorem State.setDev_pendLedFtsw (s : State) (d : Device) (v : DevBase) : (s.setDev d v).pendLedFtsw = s.pendLedFtsw := by cases d <;> rfl
@[simp] theorem State.setDev_pendLedExp (s : State) (d : Device) (v : DevBase) : (s.setDev d v).pendLedExp = s.pendLedExp := by cases d <;> rfl
@[simp] theorem State.setDev_pendNum (s : State) (d : Device) (v : DevBase) : (s.setDev d v).pendNum = s.pendNum := by cases d <;> rfl
@[simp] theorem State.setDev_eq (s : State) (d : Device) (v : DevBase) : (s.setDev d v).eq = s.eq := by cases d <;> rfl
@[simp] theorem State.setDev_quiet (s : State) (d : Device) (v : DevBase) : (s.setDev d v).quiet = s.quiet := by cases d <;> rfl
@[simp] theorem State.setDev_mode (s : State) (d : Device) (v : DevBase) : (s.setDev d v).mode = s.mode := by cases d <;> rfl
@[simp] theorem State.setDev_input (s : State) (d : Device) (v : DevBase) : (s.setDev d v).input = s.input := by cases d <;> rfl
@[simp] theorem State.setDev_trace (s : State) (d : Device) (v : DevBase) : (s.setDev d v).trace = s.trace := by cases d <;> rfl
@[simp] theorem State.setDev_call (s : State) (d : Device) (v : DevBase) : (s.setDev d v).call = s.call := by cases d <;> rfl
@[simp] theorem State.setDev_pass (s : State) (d : Device) (v : DevBase) : (s.setDev d v).pass = s.pass := by cases d <;> rfl
@[simp] theorem State.setDev_dev_self (s : State) (d : Device) (v : DevBase) : (s.setDev d v).dev d = v := by cases d <;> rfl
theorem State.setDev_dev_other (s : State) (d e : Device) (v : DevBase) (h : e ≠ d) : (s.setDev d v).dev e = s.dev e := by
  cases d <;> cases e <;> first | rfl | exact absurd rfl h

/-! `State.zeroDev` -/
@[simp] theorem State.zeroDev_cfg (s : State) (d : Device) : (s.zeroDev d).cfg = s.cfg := by cases d <;> rfl
@[simp] theorem State.zeroDev_fb (s : State) (d : Device) : (s.zeroDev d).fb = s.fb := by cases d <;> rfl
@[simp] theorem State.zeroDev_plen (s : State) (d : Device) : (s.zeroDev d).plen = s.plen := by cases d <;> rfl
@[simp] theorem State.zeroDev_explen (s : State) (d : Device) : (s.zeroDev d).explen = s.explen := by cases d <;> rfl
@[simp] theorem State.zeroDev_tb (s : State) (d : Device) : (s.zeroDev d).tb = s.tb := by cases d <;> rfl
@[simp] theorem State.zeroDev_txp (s : State) (d : Device) : (s.zeroDev d).txp = s.txp := by cases d <;> rfl
@[simp] theorem State.zeroDev_tidx (s : State) (d : Device) : (s.zeroDev d).tidx = s.tidx := by cases d <;> rfl
@[simp] theorem State.zeroDev_tlen (s : State) (d : Device) : (s.zeroDev d).tlen = s.tlen := by cases d <;> rfl
@[simp] theorem State.zeroDev_tmr (s : State) (d : Device) : (s.zeroDev d).tmr = s.tmr := by cases d <;> rfl
@[simp] theorem State.zeroDev_tdev (s : State) (d : Device) : (s.zeroDev d).tdev = s.tdev := by cases d <;> rfl
@[simp] theorem State.zeroDev_tval (s : State) (d : Device) : (s.zeroDev d).tval = s.tval := by cases d <;> rfl
@[simp] theorem State.zeroDev_pendLedFtsw (s : State) (d : Device) : (s.zeroDev d).pendLedFtsw = s.pendLedFtsw := by cases d <;> rfl
@[simp] theorem State.zeroDev_pendLedExp (s : State) (d : Device) : (s.zeroDev d).pendLedExp = s.pendLedExp := by cases d <;> rfl
@[simp] theorem State.zeroDev_pendNum (s : State) (d : Device) : (s.zeroDev d).pendNum = s.pendNum := by cases d <;> rfl
@[simp] theorem State.zeroDev_eq (s : State) (d : Device) : (s.zeroDev d).eq = s.eq := by cases d <;> rfl
@[simp] theorem State.zeroDev_quiet (s : State) (d : Device) : (s.zeroDev d).quiet = s.quiet := by cases d <;> rfl
@[simp] theorem State.zeroDev_mode (s : State) (d : Device) : (s.zeroDev d).mode = s.mode := by cases d <;> rfl
@[simp] theorem State.zeroDev_input (s : State) (d : Device) : (s.zeroDev d).input = s.input := by cases d <;> rfl
@[simp] theorem State.zeroDev_trace (s : State) (d : Device) : (s.zeroDev d).trace = s.trace := by cases d <;> rfl
@[simp] theorem State.zeroDev_call (s : State) (d : Device) : (s.zeroDev d).call = s.call := by cases d <;> rfl
@[simp] theorem State.zeroDev_pass (s : State) (d : Device) : (s.zeroDev d).pass = s.pass := by cases d <;> rfl
@[simp] theorem State.zeroDev_dev_self (s : State) (d : Device) : (s.zeroDev d).dev d = DevBase.zero := by cases d <;> rfl
theorem State.zeroDev_dev_other (s : State) (d e : Device) (h : e ≠ d) : (s.zeroDev d).dev e = s.dev e := by
  cases d <;> cases e <;> first | rfl | exact absurd rfl h

/-! `State.freshDev` -/
@[simp] theorem State.freshDev_cfg (s : State) (d : Device) : (s.freshDev d).cfg = s.cfg := by cases d <;> rfl
@[simp] theorem State.freshDev_fb (s : State) (d : Device) : (s.freshDev d).fb = s.fb := by cases d <;> rfl
@[simp] theorem State.freshDev_plen (s : State) (d : Device) : (s.freshDev d).plen = s.plen := by cases d <;> rfl
@[simp] theorem State.freshDev_explen (s : State) (d : Device) : (s.freshDev d).explen = s.explen := by cases d <;> rfl
@[simp] theorem State.freshDev_tb (s : State) (d : Device) : (s.freshDev d).tb = s.tb := by cases d <;> rfl
@[simp] theorem State.freshDev_txp (s : State) (d : Device) : (s.freshDev d).txp = s.txp := by cases d <;> rfl
@[simp] theorem State.freshDev_tidx (s : State) (d : Device) : (s.freshDev d).tidx = s.tidx := by cases d <;> rfl
@[simp] theorem State.freshDev_tlen (s : State) (d : Device) : (s.freshDev d).tlen = s.tlen := by cases d <;> rfl
@[simp] theorem State.freshDev_tmr (s : State) (d : Device) : (s.freshDev d).tmr = s.tmr := by cases d <;> rfl
@[simp] theorem State.freshDev_tdev (s : State) (d : Device) : (s.freshDev d).tdev = s.tdev := by cases d <;> rfl
@[simp] theorem State.freshDev_tval (s : State) (d : Device) : (s.freshDev d).tval = s.tval := by cases d <;> rfl
@[simp] theorem State.freshDev_pendLedFtsw (s : State) (d : Device) : (s.freshDev d).pendLedFtsw = s.pendLedFtsw := by cases d <;> rfl
@[simp] theorem State.freshDev_pendLedExp (s : State) (d : Device) : (s.freshDev d).pendLedExp = s.pendLedExp := by cases d <;> rfl
@[simp] theorem State.freshDev_pendNum (s : State) (d : Device) : (s.freshDev d).pendNum = s.pendNum := by cases d <;> rfl
@[simp] theorem State.freshDev_eq (s : State) (d : Device) : (s.freshDev d).eq = s.eq := by cases d <;> rfl
@[simp] theorem State.freshDev_quiet (s : State) (d : Device) : (s.freshDev d).quiet = s.quiet := by cases d <;> rfl
@[simp] theorem State.freshDev_mode (s : State) (d : Device) : (s.freshDev d).mode = s.mode := by cases d <;> rfl
@[simp] theorem State.freshDev_input (s : State) (d : Device) : (s.freshDev d).input = s.input := by cases d <;> rfl
@[simp] theorem State.freshDev_trace (s : State) (d : Device) : (s.freshDev d).trace = s.trace := by cases d <;> rfl
@[simp] theorem State.freshDev_call (s : State) (d : Device) : (s.freshDev d).call = s.call := by cases d <;> rfl
@[simp] theorem State.freshDev_pass (s : State) (d : Device) : (s.freshDev d).pass = s.pass := by cases d <;> rfl
@[simp] theorem State.freshDev_dev_self (s : State) (d : Device) :
    (s.freshDev d).dev d = { DevBase.zero with present := true, ledStale := true } := by cases d <;> rfl
theorem State.freshDev_dev_other (s : State) (d e : Device) (h : e ≠ d) : (s.freshDev d).dev e = s.dev e := by
  cases d <;> cases e <;> first | rfl | exact absurd rfl h

/-! `State.setPendLed` -/
@[simp] theorem State.setPendLed_cfg (s : State) (d : Device) (v : Byte) : (s.setPendLed d v).cfg = s.cfg := by cases d <;> rfl
@[simp] theorem State.setPendLed_fb (s : State) (d : Device) (v : Byte) : (s.setPendLed d v).fb = s.fb := by cases d <;> rfl
@[simp] theorem State.setPendLed_plen (s : State) (d : Device) (v : Byte) : (s.setPendLed d v).plen = s.plen := by cases d <;> rfl
@[simp] theorem State.setPendLed_explen (s : State) (d : Device) (v : Byte) : (s.setPendLed d v).explen = s.explen := by cases d <;> rfl
@[simp] theorem State.setPendLed_tb (s : State) (d : Device) (v : Byte) : (s.setPendLed d v).tb = s.tb := by cases d <;> rfl
@[simp] theorem State.setPendLed_txp (s : State) (d : Device) (v : Byte) : (s.setPendLed d v).txp = s.txp := by cases d <;> rfl
@[simp] theorem State.setPendLed_tidx (s : State) (d : Device) (v : Byte) : (s.setPendLed d v).tidx = s.tidx := by cases d <;> rfl
@[simp] theorem State.setPendLed_tlen (s : State) (d : Device) (v : Byte) : (s.setPendLed d v).tlen = s.tlen := by cases d <;> rfl
@[simp] theorem State.setPendLed_tmr (s : State) (d : Device) (v : Byte) : (s.setPendLed d v).tmr = s.tmr := by cases d <;> rfl
@[simp] theorem State.setPendLed_tdev (s : State) (d : Device) (v : Byte) : (s.setPendLed d v).tdev = s.tdev := by cases d <;> rfl
@[simp] theorem State.setPendLed_tval (s : State) (d : Device) (v : Byte) : (s.setPendLed d v).tval = s.tval := by cases d <;> rfl
@[simp] theorem State.setPendLed_ftsw (s : State) (d : Device) (v : Byte) : (s.setPendLed d v).ftsw = s.ftsw := by cases d <;> rfl
@[simp] theorem State.setPendLed_exp (s : State) (d : Device) (v : Byte) : (s.setPendLed d v).exp = s.exp := by cases d <;> rfl
@[simp] theorem State.setPendLed_pendNum (s : State) (d : Device) (v : Byte) : (s.setPendLed d v).pendNum = s.pendNum := by cases d <;> rfl
@[simp] theorem State.setPendLed_eq (s : State) (d : Device) (v : Byte) : (s.setPendLed d v).eq = s.eq := by cases d <;> rfl
@[simp] theorem State.setPendLed_quiet (s : State) (d : Device) (v : Byte) : (s.setPendLed d v).quiet = s.quiet := by cases d <;> rfl
@[simp] theorem State.setPendLed_mode (s : State) (d : Device) (v : Byte) : (s.setPendLed d v).mode = s.mode := by cases d <;> rfl
@[simp] theorem State.setPendLed_input (s : State) (d : Device) (v : Byte) : (s.setPendLed d v).input = s.input := by cases d <;> rfl
@[simp] theorem State.setPendLed_trace (s : State) (d : Device) (v : Byte) : (s.setPendLed d v).trace = s.trace := by cases d <;> rfl
@[simp] theorem State.setPendLed_call (s : State) (d : Device) (v : Byte) : (s.setPendLed d v).call = s.call := by cases d <;> rfl
@[simp] theorem State.setPendLed_pass (s : State) (d : Device) (v : Byte) : (s.setPendLed d v).pass = s.pass := by cases d <;> rfl
@[simp] theorem State.setPendLed_self (s : State) (d : Device) (v : Byte) : (s.setPendLed d v).pendLed d = v := by cases d <;> rfl
theorem State.setPendLed_other (s : State) (d e : Device) (v : Byte) (h : e ≠ d) :
    (s.setPendLed d v).pendLed e = s.pendLed e := by
  cases d <;> cases e <;> first | rfl | exact absurd rfl h

/-! `State.append` -/
@[simp] theorem State.append_cfg (s : State) (b : Byte) : (s.append b).cfg = s.cfg := rfl
@[simp] theorem State.append_explen (s : State) (b : Byte) : (s.append b).explen = s.explen := rfl
@[simp] theorem State.append_tb (s : State) (b : Byte) : (s.append b).tb = s.tb := rfl
@[simp] theorem State.append_txp (s : State) (b : Byte) : (s.append b).txp = s.txp := rfl
@[simp] theorem State.append_tidx (s : State) (b : Byte) : (s.append b).tidx = s.tidx := rfl
@[simp] theorem State.append_tlen (s : State) (b : Byte) : (s.append b).tlen = s.tlen := rfl
@[simp] theorem State.append_tmr (s : State) (b : Byte) : (s.append b).tmr = s.tmr := rfl
@[simp] theorem State.append_tdev (s : State) (b : Byte) : (s.append b).tdev = s.tdev := rfl
@[simp] theorem State.append_tval (s : State) (b : Byte) : (s.append b).tval = s.tval := rfl
@[simp] theorem State.append_ftsw (s : State) (b : Byte) : (s.append b).ftsw = s.ftsw := rfl
@[simp] theorem State.append_exp (s : State) (b : Byte) : (s.append b).exp = s.exp := rfl
@[simp] theorem State.append_pendLedFtsw (s : State) (b : Byte) : (s.append b).pendLedFtsw = s.pendLedFtsw := rfl
@[simp] theorem State.append_pendLedExp (s : State) (b : Byte) : (s.append b).pendLedExp = s.pendLedExp := rfl
@[simp] theorem State.append_pendNum (s : State) (b : Byte) : (s.append b).pendNum = s.pendNum := rfl
@[simp] theorem State.append_eq (s : State) (b : Byte) : (s.append b).eq = s.eq := rfl
@[simp] theorem State.append_quiet (s : State) (b : Byte) : (s.append b).quiet = s.quiet := rfl
@[simp] theorem State.append_mode (s : State) (b : Byte) : (s.append b).mode = s.mode := rfl
@[simp] theorem State.append_input (s : State) (b : Byte) : (s.append b).input = s.input := rfl
@[simp] theorem State.append_trace (s : State) (b : Byte) : (s.append b).trace = s.trace := rfl
@[simp] theorem State.append_call (s : State) (b : Byte) : (s.append b).call = s.call := rfl
@[simp] theorem State.append_pass (s : State) (b : Byte) : (s.append b).pass = s.pass := rfl
@[simp] theorem State.append_fb (s : State) (b : Byte) : (s.append b).fb = s.fb.setIfInBounds s.plen.val b := rfl
@[simp] theorem State.append_plen (s : State) (b : Byte) : (s.append b).plen = s.plen + 1 := rfl

/-! `State.rearm` -/
@[simp] theorem State.rearm_cfg (s : State) : s.rearm.cfg = s.cfg := rfl
@[simp] theorem State.rearm_fb (s : State) : s.rearm.fb = s.fb := rfl
@[simp] theorem State.rearm_tb (s : State) : s.rearm.tb = s.tb := rfl
@[simp] theorem State.rearm_txp (s : State) : s.rearm.txp = s.txp := rfl
@[simp] theorem State.rearm_tidx (s : State) : s.rearm.tidx = s.tidx := rfl
@[simp] theorem State.rearm_tlen (s : State) : s.rearm.tlen = s.tlen := rfl
@[simp] theorem State.rearm_tmr (s : State) : s.rearm.tmr = s.tmr := rfl
@[simp] theorem State.rearm_tdev (s : State) : s.rearm.tdev = s.tdev := rfl
@[simp] theorem State.rearm_tval (s : State) : s.rearm.tval = s.tval := rfl
@[simp] theorem State.rearm_ftsw (s : State) : s.rearm.ftsw = s.ftsw := rfl
@[simp] theorem State.rearm_exp (s : State) : s.rearm.exp = s.exp := rfl
@[simp] theorem State.rearm_pendLedFtsw (s : State) : s.rearm.pendLedFtsw = s.pendLedFtsw := rfl
@[simp] theorem State.rearm_pendLedExp (s : State) : s.rearm.pendLedExp = s.pendLedExp := rfl
@[simp] theorem State.rearm_pendNum (s : State) : s.rearm.pendNum = s.pendNum := rfl
@[simp] theorem State.rearm_eq (s : State) : s.rearm.eq = s.eq := rfl
@[simp] theorem State.rearm_quiet (s : State) : s.rearm.quiet = s.quiet := rfl
@[simp] theorem State.rearm_mode (s : State) : s.rearm.mode = s.mode := rfl
@[simp] theorem State.rearm_input (s : State) : s.rearm.input = s.input := rfl
@[simp] theorem State.rearm_trace (s : State) : s.rearm.trace = s.trace := rfl
@[simp] theorem State.rearm_call (s : State) : s.rearm.call = s.call := rfl
@[simp] theorem State.rearm_pass (s : State) : s.rearm.pass = s.pass := rfl
@[simp] theorem State.rearm_plen (s : State) : s.rearm.plen = 0 := rfl
@[simp] theorem State.rearm_explen (s : State) : s.rearm.explen = 0 := rfl

/-! `State.storeTb` -/
@[simp] theorem State.storeTb_cfg (s : State) (bs : List Byte) : (s.storeTb bs).cfg = s.cfg := rfl
@[simp] theorem State.storeTb_fb (s : State) (bs : List Byte) : (s.storeTb bs).fb = s.fb := rfl
@[simp] theorem State.storeTb_plen (s : State) (bs : List Byte) : (s.storeTb bs).plen = s.plen := rfl
@[simp] theorem State.storeTb_explen (s : State) (bs : List Byte) : (s.storeTb bs).explen = s.explen := rfl
@[simp] theorem State.storeTb_txp (s : State) (bs : List Byte) : (s.storeTb bs).txp = s.txp := rfl
@[simp] theorem State.storeTb_tidx (s : State) (bs : List Byte) : (s.storeTb bs).tidx = s.tidx := rfl
@[simp] theorem State.storeTb_tlen (s : State) (bs : List Byte) : (s.storeTb bs).tlen = s.tlen := rfl
@[simp] theorem State.storeTb_tmr (s : State) (bs : List Byte) : (s.storeTb bs).tmr = s.tmr := rfl
@[simp] theorem State.storeTb_tdev (s : State) (bs : List Byte) : (s.storeTb bs).tdev = s.tdev := rfl
@[simp] theorem State.storeTb_tval (s : State) (bs : List Byte) : (s.storeTb bs).tval = s.tval := rfl
@[simp] theorem State.storeTb_ftsw (s : State) (bs : List Byte) : (s.storeTb bs).ftsw = s.ftsw := rfl
@[simp] theorem State.storeTb_exp (s : State) (bs : List Byte) : (s.storeTb bs).exp = s.exp := rfl
@[simp] theorem State.storeTb_pendLedFtsw (s : State) (bs : List Byte) : (s.storeTb bs).pendLedFtsw = s.pendLedFtsw := rfl
@[simp] theorem State.storeTb_pendLedExp (s : State) (bs : List Byte) : (s.storeTb bs).pendLedExp = s.pendLedExp := rfl
@[simp] theorem State.storeTb_pendNum (s : State) (bs : List Byte) : (s.storeTb bs).pendNum = s.pendNum := rfl
@[simp] theorem State.storeTb_eq (s : State) (bs : List Byte) : (s.storeTb bs).eq = s.eq := rfl
@[simp] theorem State.storeTb_quiet (s : State) (bs : List Byte) : (s.storeTb bs).quiet = s.quiet := rfl
@[simp] theorem State.storeTb_mode (s : State) (bs : List Byte) : (s.storeTb bs).mode = s.mode := rfl
@[simp] theorem State.storeTb_input (s : State) (bs : List Byte) : (s.storeTb bs).input = s.input := rfl
@[simp] theorem State.storeTb_trace (s : State) (bs : List Byte) : (s.storeTb bs).trace = s.trace := rfl
@[simp] theorem State.storeTb_call (s : State) (bs : List Byte) : (s.storeTb bs).call = s.call := rfl
@[simp] theorem State.storeTb_pass (s : State) (bs : List Byte) : (s.storeTb bs).pass = s.pass := rfl

/-! `State.startReply` -/
@[simp] theorem State.startReply_cfg (s : State) (b : Byte) : (s.startReply b).cfg = s.cfg := rfl
@[simp] theorem State.startReply_fb (s : State) (b : Byte) : (s.startReply b).fb = s.fb := rfl
@[simp] theorem State.startReply_plen (s : State) (b : Byte) : (s.startReply b).plen = s.plen := rfl
@[simp] theorem State.startReply_explen (s : State) (b : Byte) : (s.startReply b).explen = s.explen := rfl
@[simp] theorem State.startReply_tb (s : State) (b : Byte) : (s.startReply b).tb = s.tb := rfl
@[simp] theorem State.startReply_tidx (s : State) (b : Byte) : (s.startReply b).tidx = s.tidx := rfl
@[simp] theorem State.startReply_tlen (s : State) (b : Byte) : (s.startReply b).tlen = s.tlen := rfl
@[simp] theorem State.startReply_tdev (s : State) (b : Byte) : (s.startReply b).tdev = s.tdev := rfl
@[simp] theorem State.startReply_tval (s : State) (b : Byte) : (s.startReply b).tval = s.tval := rfl
@[simp] theorem State.startReply_ftsw (s : State) (b : Byte) : (s.startReply b).ftsw = s.ftsw := rfl
@[simp] theorem State.startReply_exp (s : State) (b : Byte) : (s.startReply b).exp = s.exp := rfl
@[simp] theorem State.startReply_pendLedFtsw (s : State) (b : Byte) : (s.startReply b).pendLedFtsw = s.pendLedFtsw := rfl
@[simp] theorem State.startReply_pendLedExp (s : State) (b : Byte) : (s.startReply b).pendLedExp = s.pendLedExp := rfl
@[simp] theorem State.startReply_pendNum (s : State) (b : Byte) : (s.startReply b).pendNum = s.pendNum := rfl
@[simp] theorem State.startReply_eq (s : State) (b : Byte) : (s.startReply b).eq = s.eq := rfl
@[simp] theorem State.startReply_quiet (s : State) (b : Byte) : (s.startReply b).quiet = s.quiet := rfl
@[simp] theorem State.startReply_mode (s : State) (b : Byte) : (s.startReply b).mode = s.mode := rfl
@[simp] theorem State.startReply_input (s : State) (b : Byte) : (s.startReply b).input = s.input := rfl
@[simp] theorem State.startReply_call (s : State) (b : Byte) : (s.startReply b).call = s.call := rfl
@[simp] theorem State.startReply_pass (s : State) (b : Byte) : (s.startReply b).pass = s.pass := rfl
@[simp] theorem State.startReply_txp (s : State) (b : Byte) : (s.startReply b).txp = .rpl := rfl
@[simp] theorem State.startReply_tmr (s : State) (b : Byte) : (s.startReply b).tmr = 0 := rfl
@[simp] theorem State.startReply_trace (s : State) (b : Byte) : (s.startReply b).trace = s.trace ++ [.tx b] := rfl

/-! `State.push` -/
@[simp] theorem State.push_cfg (s : State) (e : Event) : (s.push e).cfg = s.cfg := by unfold State.push; split <;> rfl
@[simp] theorem State.push_fb (s : State) (e : Event) : (s.push e).fb = s.fb := by unfold State.push; split <;> rfl
@[simp] theorem State.push_plen (s : State) (e : Event) : (s.push e).plen = s.plen := by unfold State.push; split <;> rfl
@[simp] theorem State.push_explen (s : State) (e : Event) : (s.push e).explen = s.explen := by unfold State.push; split <;> rfl
@[simp] theorem State.push_tb (s : State) (e : Event) : (s.push e).tb = s.tb := by unfold State.push; split <;> rfl
@[simp] theorem State.push_txp (s : State) (e : Event) : (s.push e).txp = s.txp := by unfold State.push; split <;> rfl
@[simp] theorem State.push_tidx (s : State) (e : Event) : (s.push e).tidx = s.tidx := by unfold State.push; split <;> rfl
@[simp] theorem State.push_tlen (s : State) (e : Event) : (s.push e).tlen = s.tlen := by unfold State.push; split <;> rfl
@[simp] theorem State.push_tmr (s : State) (e : Event) : (s.push e).tmr = s.tmr := by unfold State.push; split <;> rfl
@[simp] theorem State.push_tdev (s : State) (e : Event) : (s.push e).tdev = s.tdev := by unfold State.push; split <;> rfl
@[simp] theorem State.push_tval (s : State) (e : Event) : (s.push e).tval = s.tval := by unfold State.push; split <;> rfl
@[simp] theorem State.push_ftsw (s : State) (e : Event) : (s.push e).ftsw = s.ftsw := by unfold State.push; split <;> rfl
@[simp] theorem State.push_exp (s : State) (e : Event) : (s.push e).exp = s.exp := by unfold State.push; split <;> rfl
@[simp] theorem State.push_pendLedFtsw (s : State) (e : Event) : (s.push e).pendLedFtsw = s.pendLedFtsw := by unfold State.push; split <;> rfl
@[simp] theorem State.push_pendLedExp (s : State) (e : Event) : (s.push e).pendLedExp = s.pendLedExp := by unfold State.push; split <;> rfl
@[simp] theorem State.push_pendNum (s : State) (e : Event) : (s.push e).pendNum = s.pendNum := by unfold State.push; split <;> rfl
@[simp] theorem State.push_quiet (s : State) (e : Event) : (s.push e).quiet = s.quiet := by unfold State.push; split <;> rfl
@[simp] theorem State.push_mode (s : State) (e : Event) : (s.push e).mode = s.mode := by unfold State.push; split <;> rfl
@[simp] theorem State.push_input (s : State) (e : Event) : (s.push e).input = s.input := by unfold State.push; split <;> rfl
@[simp] theorem State.push_call (s : State) (e : Event) : (s.push e).call = s.call := by unfold State.push; split <;> rfl
@[simp] theorem State.push_pass (s : State) (e : Event) : (s.push e).pass = s.pass := by unfold State.push; split <;> rfl

/-! `State.popRet` -/
@[simp] theorem State.popRet_cfg (s : State) : s.popRet.cfg = s.cfg := by unfold State.popRet; split <;> rfl
@[simp] theorem State.popRet_fb (s : State) : s.popRet.fb = s.fb := by unfold State.popRet; split <;> rfl
@[simp] theorem State.popRet_plen (s : State) : s.popRet.plen = s.plen := by unfold State.popRet; split <;> rfl
@[simp] theorem State.popRet_explen (s : State) : s.popRet.explen = s.explen := by unfold State.popRet; split <;> rfl
@[simp] theorem State.popRet_tb (s : State) : s.popRet.tb = s.tb := by unfold State.popRet; split <;> rfl
@[simp] theorem State.popRet_txp (s : State) : s.popRet.txp = s.txp := by unfold State.popRet; split <;> rfl
@[simp] theorem State.popRet_tidx (s : State) : s.popRet.tidx = s.tidx := by unfold State.popRet; split <;> rfl
@[simp] theorem State.popRet_tlen (s : State) : s.popRet.tlen = s.tlen := by unfold State.popRet; split <;> rfl
@[simp] theorem State.popRet_tmr (s : State) : s.popRet.tmr = s.tmr := by unfold State.popRet; split <;> rfl
@[simp] theorem State.popRet_tdev (s : State) : s.popRet.tdev = s.tdev := by unfold State.popRet; split <;> rfl
@[simp] theorem State.popRet_tval (s : State) : s.popRet.tval = s.tval := by unfold State.popRet; split <;> rfl
@[simp] theorem State.popRet_ftsw (s : State) : s.popRet.ftsw = s.ftsw := by unfold State.popRet; split <;> rfl
@[simp] theorem State.popRet_exp (s : State) : s.popRet.exp = s.exp := by unfold State.popRet; split <;> rfl
@[simp] theorem State.popRet_pendLedFtsw (s : State) : s.popRet.pendLedFtsw = s.pendLedFtsw := by unfold State.popRet; split <;> rfl
@[simp] theorem State.popRet_pendLedExp (s : State) : s.popRet.pendLedExp = s.pendLedExp := by unfold State.popRet; split <;> rfl
@[simp] theorem State.popRet_pendNum (s : State) : s.popRet.pendNum = s.pendNum := by unfold State.popRet; split <;> rfl
@[simp] theorem State.popRet_quiet (s : State) : s.popRet.quiet = s.quiet := by unfold State.popRet; split <;> rfl
@[simp] theorem State.popRet_mode (s : State) : s.popRet.mode = s.mode := by unfold State.popRet; split <;> rfl
@[simp] theorem State.popRet_input (s : State) : s.popRet.input = s.input := by unfold State.popRet; split <;> rfl
@[simp] theorem State.popRet_call (s : State) : s.popRet.call = s.call := by unfold State.popRet; split <;> rfl
@[simp] theorem State.popRet_pass (s : State) : s.popRet.pass = s.pass := by unfold State.popRet; split <;> rfl

/-! `State.ackCache` -/
@[simp] theorem State.ackCache_cfg (s : State) : s.ackCache.cfg = s.cfg := by unfold State.ackCache; split <;> simp
@[simp] theorem State.ackCache_fb (s : State) : s.ackCache.fb = s.fb := by unfold State.ackCache; split <;> simp
@[simp] theorem State.ackCache_plen (s : State) : s.ackCache.plen = s.plen := by unfold State.ackCache; split <;> simp
@[simp] theorem State.ackCache_explen (s : State) : s.ackCache.explen = s.explen := by unfold State.ackCache; split <;> simp
@[simp] theorem State.ackCache_tb (s : State) : s.ackCache.tb = s.tb := by unfold State.ackCache; split <;> simp
@[simp] theorem State.ackCache_txp (s : State) : s.ackCache.txp = s.txp := by unfold State.ackCache; split <;> simp
@[simp] theorem State.ackCache_tidx (s : State) : s.ackCache.tidx = s.tidx := by unfold State.ackCache; split <;> simp
@[simp] theorem State.ackCache_tlen (s : State) : s.ackCache.tlen = s.tlen := by unfold State.ackCache; split <;> simp
@[simp] theorem State.ackCache_tmr (s : State) : s.ackCache.tmr = s.tmr := by unfold State.ackCache; split <;> simp
@[simp] theorem State.ackCache_tdev (s : State) : s.ackCache.tdev = s.tdev := by unfold State.ackCache; split <;> simp
@[simp] theorem State.ackCache_tval (s : State) : s.ackCache.tval = s.tval := by unfold State.ackCache; split <;> simp
@[simp] theorem State.ackCache_pendLedFtsw (s : State) : s.ackCache.pendLedFtsw = s.pendLedFtsw := by unfold State.ackCache; split <;> simp
@[simp] theorem State.ackCache_pendLedExp (s : State) : s.ackCache.pendLedExp = s.pendLedExp := by unfold State.ackCache; split <;> simp
@[simp] theorem State.ackCache_pendNum (s : State) : s.ackCache.pendNum = s.pendNum := by unfold State.ackCache; split <;> simp
@[simp] theorem State.ackCache_eq (s : State) : s.ackCache.eq = s.eq := by unfold State.ackCache; split <;> simp
@[simp] theorem State.ackCache_quiet (s : State) : s.ackCache.quiet = s.quiet := by unfold State.ackCache; split <;> simp
@[simp] theorem State.ackCache_mode (s : State) : s.ackCache.mode = s.mode := by unfold State.ackCache; split <;> simp
@[simp] theorem State.ackCache_input (s : State) : s.ackCache.input = s.input := by unfold State.ackCache; split <;> simp
@[simp] theorem State.ackCache_trace (s : State) : s.ackCache.trace = s.trace := by unfold State.ackCache; split <;> simp
@[simp] theorem State.ackCache_call (s : State) : s.ackCache.call = s.call := by unfold State.ackCache; split <;> simp
@[simp] theorem State.ackCache_pass (s : State) : s.ackCache.pass = s.pass := by unfold State.ackCache; split <;> simp

/-! `State.devFail` -/
@[simp] theorem State.devFail_cfg (s : State) (d : Device) : (s.devFail d).cfg = s.cfg := by unfold State.devFail; split <;> simp
@[simp] theorem State.devFail_fb (s : State) (d : Device) : (s.devFail d).fb = s.fb := by unfold State.devFail; split <;> simp
@[simp] theorem State.devFail_plen (s : State) (d : Device) : (s.devFail d).plen = s.plen := by unfold State.devFail; split <;> simp
@[simp] theorem State.devFail_explen (s : State) (d : Device) : (s.devFail d).explen = s.explen := by unfold State.devFail; split <;> simp
@[simp] theorem State.devFail_tb (s : State) (d : Device) : (s.devFail d).tb = s.tb := by unfold State.devFail; split <;> simp
@[simp] theorem State.devFail_txp (s : State) (d : Device) : (s.devFail d).txp = s.txp := by unfold State.devFail; split <;> simp
@[simp] theorem State.devFail_tidx (s : State) (d : Device) : (s.devFail d).tidx = s.tidx := by unfold State.devFail; split <;> simp
@[simp] theorem State.devFail_tlen (s : State) (d : Device) : (s.devFail d).tlen = s.tlen := by unfold State.devFail; split <;> simp
@[simp] theorem State.devFail_tmr (s : State) (d : Device) : (s.devFail d).tmr = s.tmr := by unfold State.devFail; split <;> simp
@[simp] theorem State.devFail_tdev (s : State) (d : Device) : (s.devFail d).tdev = s.tdev := by unfold State.devFail; split <;> simp
@[simp] theorem State.devFail_tval (s : State) (d : Device) : (s.devFail d).tval = s.tval := by unfold State.devFail; split <;> simp
@[simp] theorem State.devFail_pendLedFtsw (s : State) (d : Device) : (s.devFail d).pendLedFtsw = s.pendLedFtsw := by unfold State.devFail; split <;> simp
@[simp] theorem State.devFail_pendLedExp (s : State) (d : Device) : (s.devFail d).pendLedExp = s.pendLedExp := by unfold State.devFail; split <;> simp
@[simp] theorem State.devFail_pendNum (s : State) (d : Device) : (s.devFail d).pendNum = s.pendNum := by unfold State.devFail; split <;> simp
@[simp] theorem State.devFail_quiet (s : State) (d : Device) : (s.devFail d).quiet = s.quiet := by unfold State.devFail; split <;> simp
@[simp] theorem State.devFail_mode (s : State) (d : Device) : (s.devFail d).mode = s.mode := by unfold State.devFail; split <;> simp
@[simp] theorem State.devFail_input (s : State) (d : Device) : (s.devFail d).input = s.input := by unfold State.devFail; split <;> simp
@[simp] theorem State.devFail_call (s : State) (d : Device) : (s.devFail d).call = s.call := by unfold State.devFail; split <;> simp
@[simp] theorem State.devFail_pass (s : State) (d : Device) : (s.devFail d).pass = s.pass := by unfold State.devFail; split <;> simp

/-! `State.txFail` -/
@[simp] theorem State.txFail_cfg (s : State) (c : TxCause) : (s.txFail c).cfg = s.cfg := by simp [State.txFail]
@[simp] theorem State.txFail_fb (s : State) (c : TxCause) : (s.txFail c).fb = s.fb := by simp [State.txFail]
@[simp] theorem State.txFail_plen (s : State) (c : TxCause) : (s.txFail c).plen = s.plen := by simp [State.txFail]
@[simp] theorem State.txFail_explen (s : State) (c : TxCause) : (s.txFail c).explen = s.explen := by simp [State.txFail]
@[simp] theorem State.txFail_tb (s : State) (c : TxCause) : (s.txFail c).tb = s.tb := by simp [State.txFail]
@[simp] theorem State.txFail_tidx (s : State) (c : TxCause) : (s.txFail c).tidx = s.tidx := by simp [State.txFail]
@[simp] theorem State.txFail_tlen (s : State) (c : TxCause) : (s.txFail c).tlen = s.tlen := by simp [State.txFail]
@[simp] theorem State.txFail_tmr (s : State) (c : TxCause) : (s.txFail c).tmr = s.tmr := by simp [State.txFail]
@[simp] theorem State.txFail_tdev (s : State) (c : TxCause) : (s.txFail c).tdev = s.tdev := by simp [State.txFail]
@[simp] theorem State.txFail_tval (s : State) (c : TxCause) : (s.txFail c).tval = s.tval := by simp [State.txFail]
@[simp] theorem State.txFail_pendLedFtsw (s : State) (c : TxCause) : (s.txFail c).pendLedFtsw = s.pendLedFtsw := by simp [State.txFail]
@[simp] theorem State.txFail_pendLedExp (s : State) (c : TxCause) : (s.txFail c).pendLedExp = s.pendLedExp := by simp [State.txFail]
@[simp] theorem State.txFail_pendNum (s : State) (c : TxCause) : (s.txFail c).pendNum = s.pendNum := by simp [State.txFail]
@[simp] theorem State.txFail_quiet (s : State) (c : TxCause) : (s.txFail c).quiet = s.quiet := by simp [State.txFail]
@[simp] theorem State.txFail_mode (s : State) (c : TxCause) : (s.txFail c).mode = s.mode := by simp [State.txFail]
@[simp] theorem State.txFail_input (s : State) (c : TxCause) : (s.txFail c).input = s.input := by simp [State.txFail]
@[simp] theorem State.txFail_call (s : State) (c : TxCause) : (s.txFail c).call = s.call := by simp [State.txFail]
@[simp] theorem State.txFail_pass (s : State) (c : TxCause) : (s.txFail c).pass = s.pass := by simp [State.txFail]
@[simp] theorem State.txFail_txp (s : State) (c : TxCause) : (s.txFail c).txp = .idle := by
  unfold State.txFail State.devFail; split <;> simp

/-! `State.txOk` -/
@[simp] theorem State.txOk_cfg (s : State) : s.txOk.cfg = s.cfg := by simp [State.txOk, State.devSuccess]
@[simp] theorem State.txOk_fb (s : State) : s.txOk.fb = s.fb := by simp [State.txOk, State.devSuccess]
@[simp] theorem State.txOk_plen (s : State) : s.txOk.plen = s.plen := by simp [State.txOk, State.devSuccess]
@[simp] theorem State.txOk_explen (s : State) : s.txOk.explen = s.explen := by simp [State.txOk, State.devSuccess]
@[simp] theorem State.txOk_tb (s : State) : s.txOk.tb = s.tb := by simp [State.txOk, State.devSuccess]
@[simp] theorem State.txOk_tidx (s : State) : s.txOk.tidx = s.tidx := by simp [State.txOk, State.devSuccess]
@[simp] theorem State.txOk_tlen (s : State) : s.txOk.tlen = s.tlen := by simp [State.txOk, State.devSuccess]
@[simp] theorem State.txOk_tmr (s : State) : s.txOk.tmr = s.tmr := by simp [State.txOk, State.devSuccess]
@[simp] theorem State.txOk_tdev (s : State) : s.txOk.tdev = s.tdev := by simp [State.txOk, State.devSuccess]
@[simp] theorem State.txOk_tval (s : State) : s.txOk.tval = s.tval := by simp [State.txOk, State.devSuccess]
@[simp] theorem State.txOk_pendLedFtsw (s : State) : s.txOk.pendLedFtsw = s.pendLedFtsw := by simp [State.txOk, State.devSuccess]
@[simp] theorem State.txOk_pendLedExp (s : State) : s.txOk.pendLedExp = s.pendLedExp := by simp [State.txOk, State.devSuccess]
@[simp] theorem State.txOk_pendNum (s : State) : s.txOk.pendNum = s.pendNum := by simp [State.txOk, State.devSuccess]
@[simp] theorem State.txOk_eq (s : State) : s.txOk.eq = s.eq := by simp [State.txOk, State.devSuccess]
@[simp] theorem State.txOk_quiet (s : State) : s.txOk.quiet = s.quiet := by simp [State.txOk, State.devSuccess]
@[simp] theorem State.txOk_mode (s : State) : s.txOk.mode = s.mode := by simp [State.txOk, State.devSuccess]
@[simp] theorem State.txOk_input (s : State) : s.txOk.input = s.input := by simp [State.txOk, State.devSuccess]
@[simp] theorem State.txOk_trace (s : State) : s.txOk.trace = s.trace := by simp [State.txOk, State.devSuccess]
@[simp] theorem State.txOk_call (s : State) : s.txOk.call = s.call := by simp [State.txOk, State.devSuccess]
@[simp] theorem State.txOk_pass (s : State) : s.txOk.pass = s.pass := by simp [State.txOk, State.devSuccess]
@[simp] theorem State.txOk_txp (s : State) : s.txOk.txp = .idle := rfl

/-! `State.txStart` -/
@[simp] theorem State.txStart_cfg (s : State) (d : Device) (v : TxVal) (body : List Byte) : (s.txStart d v body).cfg = s.cfg := by unfold State.txStart; split <;> rfl
@[simp] theorem State.txStart_fb (s : State) (d : Device) (v : TxVal) (body : List Byte) : (s.txStart d v body).fb = s.fb := by unfold State.txStart; split <;> rfl
@[simp] theorem State.txStart_plen (s : State) (d : Device) (v : TxVal) (body : List Byte) : (s.txStart d v body).plen = s.plen := by unfold State.txStart; split <;> rfl
@[simp] theorem State.txStart_explen (s : State) (d : Device) (v : TxVal) (body : List Byte) : (s.txStart d v body).explen = s.explen := by unfold State.txStart; split <;> rfl
@[simp] theorem State.txStart_ftsw (s : State) (d : Device) (v : TxVal) (body : List Byte) : (s.txStart d v body).ftsw = s.ftsw := by unfold State.txStart; split <;> rfl
@[simp] theorem State.txStart_exp (s : State) (d : Device) (v : TxVal) (body : List Byte) : (s.txStart d v body).exp = s.exp := by unfold State.txStart; split <;> rfl
@[simp] theorem State.txStart_pendLedFtsw (s : State) (d : Device) (v : TxVal) (body : List Byte) : (s.txStart d v body).pendLedFtsw = s.pendLedFtsw := by unfold State.txStart; split <;> rfl
@[simp] theorem State.txStart_pendLedExp (s : State) (d : Device) (v : TxVal) (body : List Byte) : (s.txStart d v body).pendLedExp = s.pendLedExp := by unfold State.txStart; split <;> rfl
@[simp] theorem State.txStart_pendNum (s : State) (d : Device) (v : TxVal) (body : List Byte) : (s.txStart d v body).pendNum = s.pendNum := by unfold State.txStart; split <;> rfl
@[simp] theorem State.txStart_eq (s : State) (d : Device) (v : TxVal) (body : List Byte) : (s.txStart d v body).eq = s.eq := by unfold State.txStart; split <;> rfl
@[simp] theorem State.txStart_quiet (s : State) (d : Device) (v : TxVal) (body : List Byte) : (s.txStart d v body).quiet = s.quiet := by unfold State.txStart; split <;> rfl
@[simp] theorem State.txStart_mode (s : State) (d : Device) (v : TxVal) (body : List Byte) : (s.txStart d v body).mode = s.mode := by unfold State.txStart; split <;> rfl
@[simp] theorem State.txStart_input (s : State) (d : Device) (v : TxVal) (body : List Byte) : (s.txStart d v body).input = s.input := by unfold State.txStart; split <;> rfl
@[simp] theorem State.txStart_call (s : State) (d : Device) (v : TxVal) (body : List Byte) : (s.txStart d v body).call = s.call := by unfold State.txStart; split <;> rfl
@[simp] theorem State.txStart_pass (s : State) (d : Device) (v : TxVal) (body : List Byte) : (s.txStart d v body).pass = s.pass := by unfold State.txStart; split <;> rfl

/-! `State.applyEdge` -/
@[simp] theorem State.applyEdge_cfg (s : State) (e : Edge) : (s.applyEdge e).cfg = s.cfg := by cases e <;> rfl
@[simp] theorem State.applyEdge_fb (s : State) (e : Edge) : (s.applyEdge e).fb = s.fb := by cases e <;> rfl
@[simp] theorem State.applyEdge_plen (s : State) (e : Edge) : (s.applyEdge e).plen = s.plen := by cases e <;> rfl
@[simp] theorem State.applyEdge_explen (s : State) (e : Edge) : (s.applyEdge e).explen = s.explen := by cases e <;> rfl
@[simp] theorem State.applyEdge_tb (s : State) (e : Edge) : (s.applyEdge e).tb = s.tb := by cases e <;> rfl
@[simp] theorem State.applyEdge_txp (s : State) (e : Edge) : (s.applyEdge e).txp = s.txp := by cases e <;> rfl
@[simp] theorem State.applyEdge_tidx (s : State) (e : Edge) : (s.applyEdge e).tidx = s.tidx := by cases e <;> rfl
@[simp] theorem State.applyEdge_tlen (s : State) (e : Edge) : (s.applyEdge e).tlen = s.tlen := by cases e <;> rfl
@[simp] theorem State.applyEdge_tmr (s : State) (e : Edge) : (s.applyEdge e).tmr = s.tmr := by cases e <;> rfl
@[simp] theorem State.applyEdge_tdev (s : State) (e : Edge) : (s.applyEdge e).tdev = s.tdev := by cases e <;> rfl
@[simp] theorem State.applyEdge_tval (s : State) (e : Edge) : (s.applyEdge e).tval = s.tval := by cases e <;> rfl
@[simp] theorem State.applyEdge_pendLedFtsw (s : State) (e : Edge) : (s.applyEdge e).pendLedFtsw = s.pendLedFtsw := by cases e <;> rfl
@[simp] theorem State.applyEdge_pendLedExp (s : State) (e : Edge) : (s.applyEdge e).pendLedExp = s.pendLedExp := by cases e <;> rfl
@[simp] theorem State.applyEdge_pendNum (s : State) (e : Edge) : (s.applyEdge e).pendNum = s.pendNum := by cases e <;> rfl
@[simp] theorem State.applyEdge_eq (s : State) (e : Edge) : (s.applyEdge e).eq = s.eq := by cases e <;> rfl
@[simp] theorem State.applyEdge_quiet (s : State) (e : Edge) : (s.applyEdge e).quiet = s.quiet := by cases e <;> rfl
@[simp] theorem State.applyEdge_mode (s : State) (e : Edge) : (s.applyEdge e).mode = s.mode := by cases e <;> rfl
@[simp] theorem State.applyEdge_input (s : State) (e : Edge) : (s.applyEdge e).input = s.input := by cases e <;> rfl
@[simp] theorem State.applyEdge_trace (s : State) (e : Edge) : (s.applyEdge e).trace = s.trace := by cases e <;> rfl
@[simp] theorem State.applyEdge_call (s : State) (e : Edge) : (s.applyEdge e).call = s.call := by cases e <;> rfl
@[simp] theorem State.applyEdge_pass (s : State) (e : Edge) : (s.applyEdge e).pass = s.pass := by cases e <;> rfl

/-! `State.btnDecode` -/
@[simp] theorem State.btnDecode_cfg (s : State) (x : BitVec 16) : (s.btnDecode x).cfg = s.cfg := by unfold State.btnDecode; split <;> simp
@[simp] theorem State.btnDecode_fb (s : State) (x : BitVec 16) : (s.btnDecode x).fb = s.fb := by unfold State.btnDecode; split <;> simp
@[simp] theorem State.btnDecode_plen (s : State) (x : BitVec 16) : (s.btnDecode x).plen = s.plen := by unfold State.btnDecode; split <;> simp
@[simp] theorem State.btnDecode_explen (s : State) (x : BitVec 16) : (s.btnDecode x).explen = s.explen := by unfold State.btnDecode; split <;> simp
@[simp] theorem State.btnDecode_tb (s : State) (x : BitVec 16) : (s.btnDecode x).tb = s.tb := by unfold State.btnDecode; split <;> simp
@[simp] theorem State.btnDecode_txp (s : State) (x : BitVec 16) : (s.btnDecode x).txp = s.txp := by unfold State.btnDecode; split <;> simp
@[simp] theorem State.btnDecode_tidx (s : State) (x : BitVec 16) : (s.btnDecode x).tidx = s.tidx := by unfold State.btnDecode; split <;> simp
@[simp] theorem State.btnDecode_tlen (s : State) (x : BitVec 16) : (s.btnDecode x).tlen = s.tlen := by unfold State.btnDecode; split <;> simp
@[simp] theorem State.btnDecode_tmr (s : State) (x : BitVec 16) : (s.btnDecode x).tmr = s.tmr := by unfold State.btnDecode; split <;> simp
@[simp] theorem State.btnDecode_tdev (s : State) (x : BitVec 16) : (s.btnDecode x).tdev = s.tdev := by unfold State.btnDecode; split <;> simp
@[simp] theorem State.btnDecode_tval (s : State) (x : BitVec 16) : (s.btnDecode x).tval = s.tval := by unfold State.btnDecode; split <;> simp
@[simp] theorem State.btnDecode_pendLedFtsw (s : State) (x : BitVec 16) : (s.btnDecode x).pendLedFtsw = s.pendLedFtsw := by unfold State.btnDecode; split <;> simp
@[simp] theorem State.btnDecode_pendLedExp (s : State) (x : BitVec 16) : (s.btnDecode x).pendLedExp = s.pendLedExp := by unfold State.btnDecode; split <;> simp
@[simp] theorem State.btnDecode_pendNum (s : State) (x : BitVec 16) : (s.btnDecode x).pendNum = s.pendNum := by unfold State.btnDecode; split <;> simp
@[simp] theorem State.btnDecode_quiet (s : State) (x : BitVec 16) : (s.btnDecode x).quiet = s.quiet := by unfold State.btnDecode; split <;> simp
@[simp] theorem State.btnDecode_mode (s : State) (x : BitVec 16) : (s.btnDecode x).mode = s.mode := by unfold State.btnDecode; split <;> simp
@[simp] theorem State.btnDecode_input (s : State) (x : BitVec 16) : (s.btnDecode x).input = s.input := by unfold State.btnDecode; split <;> simp
@[simp] theorem State.btnDecode_call (s : State) (x : BitVec 16) : (s.btnDecode x).call = s.call := by unfold State.btnDecode; split <;> simp
@[simp] theorem State.btnDecode_pass (s : State) (x : BitVec 16) : (s.btnDecode x).pass = s.pass := by unfold State.btnDecode; split <;> simp

/-! `State.dbtnDecode` -/
@[simp] theorem State.dbtnDecode_cfg (s : State) (x y : BitVec 16) : (s.dbtnDecode x y).cfg = s.cfg := by simp [State.dbtnDecode]
@[simp] theorem State.dbtnDecode_fb (s : State) (x y : BitVec 16) : (s.dbtnDecode x y).fb = s.fb := by simp [State.dbtnDecode]
@[simp] theorem State.dbtnDecode_plen (s : State) (x y : BitVec 16) : (s.dbtnDecode x y).plen = s.plen := by simp [State.dbtnDecode]
@[simp] theorem State.dbtnDecode_explen (s : State) (x y : BitVec 16) : (s.dbtnDecode x y).explen = s.explen := by simp [State.dbtnDecode]
@[simp] theorem State.dbtnDecode_tb (s : State) (x y : BitVec 16) : (s.dbtnDecode x y).tb = s.tb := by simp [State.dbtnDecode]
@[simp] theorem State.dbtnDecode_txp (s : State) (x y : BitVec 16) : (s.dbtnDecode x y).txp = s.txp := by simp [State.dbtnDecode]
@[simp] theorem State.dbtnDecode_tidx (s : State) (x y : BitVec 16) : (s.dbtnDecode x y).tidx = s.tidx := by simp [State.dbtnDecode]
@[simp] theorem State.dbtnDecode_tlen (s : State) (x y : BitVec 16) : (s.dbtnDecode x y).tlen = s.tlen := by simp [State.dbtnDecode]
@[simp] theorem State.dbtnDecode_tmr (s : State) (x y : BitVec 16) : (s.dbtnDecode x y).tmr = s.tmr := by simp [State.dbtnDecode]
@[simp] theorem State.dbtnDecode_tdev (s : State) (x y : BitVec 16) : (s.dbtnDecode x y).tdev = s.tdev := by simp [State.dbtnDecode]
@[simp] theorem State.dbtnDecode_tval (s : State) (x y : BitVec 16) : (s.dbtnDecode x y).tval = s.tval := by simp [State.dbtnDecode]
@[simp] theorem State.dbtnDecode_pendLedFtsw (s : State) (x y : BitVec 16) : (s.dbtnDecode x y).pendLedFtsw = s.pendLedFtsw := by simp [State.dbtnDecode]
@[simp] theorem State.dbtnDecode_pendLedExp (s : State) (x y : BitVec 16) : (s.dbtnDecode x y).pendLedExp = s.pendLedExp := by simp [State.dbtnDecode]
@[simp] theorem State.dbtnDecode_pendNum (s : State) (x y : BitVec 16) : (s.dbtnDecode x y).pendNum = s.pendNum := by simp [State.dbtnDecode]
@[simp] theorem State.dbtnDecode_quiet (s : State) (x y : BitVec 16) : (s.dbtnDecode x y).quiet = s.quiet := by simp [State.dbtnDecode]
@[simp] theorem State.dbtnDecode_mode (s : State) (x y : BitVec 16) : (s.dbtnDecode x y).mode = s.mode := by simp [State.dbtnDecode]
@[simp] theorem State.dbtnDecode_input (s : State) (x y : BitVec 16) : (s.dbtnDecode x y).input = s.input := by simp [State.dbtnDecode]
@[simp] theorem State.dbtnDecode_call (s : State) (x y : BitVec 16) : (s.dbtnDecode x y).call = s.call := by simp [State.dbtnDecode]
@[simp] theorem State.dbtnDecode_pass (s : State) (x y : BitVec 16) : (s.dbtnDecode x y).pass = s.pass := by simp [State.dbtnDecode]

/-! `State.posDecode` -/
@[simp] theorem State.posDecode_cfg (s : State) (x : BitVec 14) : (s.posDecode x).cfg = s.cfg := by simp [State.posDecode]
@[simp] theorem State.posDecode_fb (s : State) (x : BitVec 14) : (s.posDecode x).fb = s.fb := by simp [State.posDecode]
@[simp] theorem State.posDecode_plen (s : State) (x : BitVec 14) : (s.posDecode x).plen = s.plen := by simp [State.posDecode]
@[simp] theorem State.posDecode_explen (s : State) (x : BitVec 14) : (s.posDecode x).explen = s.explen := by simp [State.posDecode]
@[simp] theorem State.posDecode_tb (s : State) (x : BitVec 14) : (s.posDecode x).tb = s.tb := by simp [State.posDecode]
@[simp] theorem State.posDecode_txp (s : State) (x : BitVec 14) : (s.posDecode x).txp = s.txp := by simp [State.posDecode]
@[simp] theorem State.posDecode_tidx (s : State) (x : BitVec 14) : (s.posDecode x).tidx = s.tidx := by simp [State.posDecode]
@[simp] theorem State.posDecode_tlen (s : State) (x : BitVec 14) : (s.posDecode x).tlen = s.tlen := by simp [State.posDecode]
@[simp] theorem State.posDecode_tmr (s : State) (x : BitVec 14) : (s.posDecode x).tmr = s.tmr := by simp [State.posDecode]
@[simp] theorem State.posDecode_tdev (s : State) (x : BitVec 14) : (s.posDecode x).tdev = s.tdev := by simp [State.posDecode]
@[simp] theorem State.posDecode_tval (s : State) (x : BitVec 14) : (s.posDecode x).tval = s.tval := by simp [State.posDecode]
@[simp] theorem State.posDecode_ftsw (s : State) (x : BitVec 14) : (s.posDecode x).ftsw = s.ftsw := by simp [State.posDecode]
@[simp] theorem State.posDecode_pendLedFtsw (s : State) (x : BitVec 14) : (s.posDecode x).pendLedFtsw = s.pendLedFtsw := by simp [State.posDecode]
@[simp] theorem State.posDecode_pendLedExp (s : State) (x : BitVec 14) : (s.posDecode x).pendLedExp = s.pendLedExp := by simp [State.posDecode]
@[simp] theorem State.posDecode_pendNum (s : State) (x : BitVec 14) : (s.posDecode x).pendNum = s.pendNum := by simp [State.posDecode]
@[simp] theorem State.posDecode_quiet (s : State) (x : BitVec 14) : (s.posDecode x).quiet = s.quiet := by simp [State.posDecode]
@[simp] theorem State.posDecode_mode (s : State) (x : BitVec 14) : (s.posDecode x).mode = s.mode := by simp [State.posDecode]
@[simp] theorem State.posDecode_input (s : State) (x : BitVec 14) : (s.posDecode x).input = s.input := by simp [State.posDecode]
@[simp] theorem State.posDecode_call (s : State) (x : BitVec 14) : (s.posDecode x).call = s.call := by simp [State.posDecode]
@[simp] theorem State.posDecode_pass (s : State) (x : BitVec 14) : (s.posDecode x).pass = s.pass := by simp [State.posDecode]

/-! `State.doInit` -/
@[simp] theorem State.doInit_cfg (s : State) : s.doInit.cfg = s.cfg := by unfold State.doInit; split <;> simp [State.devOnline]
@[simp] theorem State.doInit_fb (s : State) : s.doInit.fb = s.fb := by unfold State.doInit; split <;> simp [State.devOnline]
@[simp] theorem State.doInit_plen (s : State) : s.doInit.plen = s.plen := by unfold State.doInit; split <;> simp [State.devOnline]
@[simp] theorem State.doInit_explen (s : State) : s.doInit.explen = s.explen := by unfold State.doInit; split <;> simp [State.devOnline]
@[simp] theorem State.doInit_tb (s : State) : s.doInit.tb = s.tb := by unfold State.doInit; split <;> simp [State.devOnline]
@[simp] theorem State.doInit_txp (s : State) : s.doInit.txp = s.txp := by unfold State.doInit; split <;> simp [State.devOnline]
@[simp] theorem State.doInit_tidx (s : State) : s.doInit.tidx = s.tidx := by unfold State.doInit; split <;> simp [State.devOnline]
@[simp] theorem State.doInit_tlen (s : State) : s.doInit.tlen = s.tlen := by unfold State.doInit; split <;> simp [State.devOnline]
@[simp] theorem State.doInit_tmr (s : State) : s.doInit.tmr = s.tmr := by unfold State.doInit; split <;> simp [State.devOnline]
@[simp] theorem State.doInit_tdev (s : State) : s.doInit.tdev = s.tdev := by unfold State.doInit; split <;> simp [State.devOnline]
@[simp] theorem State.doInit_tval (s : State) : s.doInit.tval = s.tval := by unfold State.doInit; split <;> simp [State.devOnline]
@[simp] theorem State.doInit_pendLedFtsw (s : State) : s.doInit.pendLedFtsw = s.pendLedFtsw := by unfold State.doInit; split <;> simp [State.devOnline]
@[simp] theorem State.doInit_pendLedExp (s : State) : s.doInit.pendLedExp = s.pendLedExp := by unfold State.doInit; split <;> simp [State.devOnline]
@[simp] theorem State.doInit_pendNum (s : State) : s.doInit.pendNum = s.pendNum := by unfold State.doInit; split <;> simp [State.devOnline]
@[simp] theorem State.doInit_quiet (s : State) : s.doInit.quiet = s.quiet := by unfold State.doInit; split <;> simp [State.devOnline]
@[simp] theorem State.doInit_mode (s : State) : s.doInit.mode = s.mode := by unfold State.doInit; split <;> simp [State.devOnline]
@[simp] theorem State.doInit_input (s : State) : s.doInit.input = s.input := by unfold State.doInit; split <;> simp [State.devOnline]
@[simp] theorem State.doInit_call (s : State) : s.doInit.call = s.call := by unfold State.doInit; split <;> simp [State.devOnline]
@[simp] theorem State.doInit_pass (s : State) : s.doInit.pass = s.pass := by unfold State.doInit; split <;> simp [State.devOnline]

/-! `State.dispatch` -/
@[simp] theorem State.dispatch_cfg (s : State) : s.dispatch.cfg = s.cfg := by unfold State.dispatch; split <;> simp [State.doBtn, State.doDbtn, State.doPos]
@[simp] theorem State.dispatch_fb (s : State) : s.dispatch.fb = s.fb := by unfold State.dispatch; split <;> simp [State.doBtn, State.doDbtn, State.doPos]
@[simp] theorem State.dispatch_plen (s : State) : s.dispatch.plen = s.plen := by unfold State.dispatch; split <;> simp [State.doBtn, State.doDbtn, State.doPos]
@[simp] theorem State.dispatch_explen (s : State) : s.dispatch.explen = s.explen := by unfold State.dispatch; split <;> simp [State.doBtn, State.doDbtn, State.doPos]
@[simp] theorem State.dispatch_tb (s : State) : s.dispatch.tb = s.tb := by unfold State.dispatch; split <;> simp [State.doBtn, State.doDbtn, State.doPos]
@[simp] theorem State.dispatch_txp (s : State) : s.dispatch.txp = s.txp := by unfold State.dispatch; split <;> simp [State.doBtn, State.doDbtn, State.doPos]
@[simp] theorem State.dispatch_tidx (s : State) : s.dispatch.tidx = s.tidx := by unfold State.dispatch; split <;> simp [State.doBtn, State.doDbtn, State.doPos]
@[simp] theorem State.dispatch_tlen (s : State) : s.dispatch.tlen = s.tlen := by unfold State.dispatch; split <;> simp [State.doBtn, State.doDbtn, State.doPos]
@[simp] theorem State.dispatch_tmr (s : State) : s.dispatch.tmr = s.tmr := by unfold State.dispatch; split <;> simp [State.doBtn, State.doDbtn, State.doPos]
@[simp] theorem State.dispatch_tdev (s : State) : s.dispatch.tdev = s.tdev := by unfold State.dispatch; split <;> simp [State.doBtn, State.doDbtn, State.doPos]
@[simp] theorem State.dispatch_tval (s : State) : s.dispatch.tval = s.tval := by unfold State.dispatch; split <;> simp [State.doBtn, State.doDbtn, State.doPos]
@[simp] theorem State.dispatch_pendLedFtsw (s : State) : s.dispatch.pendLedFtsw = s.pendLedFtsw := by unfold State.dispatch; split <;> simp [State.doBtn, State.doDbtn, State.doPos]
@[simp] theorem State.dispatch_pendLedExp (s : State) : s.dispatch.pendLedExp = s.pendLedExp := by unfold State.dispatch; split <;> simp [State.doBtn, State.doDbtn, State.doPos]
@[simp] theorem State.dispatch_pendNum (s : State) : s.dispatch.pendNum = s.pendNum := by unfold State.dispatch; split <;> simp [State.doBtn, State.doDbtn, State.doPos]
@[simp] theorem State.dispatch_quiet (s : State) : s.dispatch.quiet = s.quiet := by unfold State.dispatch; split <;> simp [State.doBtn, State.doDbtn, State.doPos]
@[simp] theorem State.dispatch_mode (s : State) : s.dispatch.mode = s.mode := by unfold State.dispatch; split <;> simp [State.doBtn, State.doDbtn, State.doPos]
@[simp] theorem State.dispatch_input (s : State) : s.dispatch.input = s.input := by unfold State.dispatch; split <;> simp [State.doBtn, State.doDbtn, State.doPos]
@[simp] theorem State.dispatch_call (s : State) : s.dispatch.call = s.call := by unfold State.dispatch; split <;> simp [State.doBtn, State.doDbtn, State.doPos]
@[simp] theorem State.dispatch_pass (s : State) : s.dispatch.pass = s.pass := by unfold State.dispatch; split <;> simp [State.doBtn, State.doDbtn, State.doPos]

/-! `State.decodeFrame` -/
@[simp] theorem State.decodeFrame_cfg (s : State) (n : Nat) : (s.decodeFrame n).cfg = s.cfg := by unfold State.decodeFrame; split <;> simp [State.replyAck, State.replyErr]
@[simp] theorem State.decodeFrame_fb (s : State) (n : Nat) : (s.decodeFrame n).fb = s.fb := by unfold State.decodeFrame; split <;> simp [State.replyAck, State.replyErr]
@[simp] theorem State.decodeFrame_plen (s : State) (n : Nat) : (s.decodeFrame n).plen = s.plen := by unfold State.decodeFrame; split <;> simp [State.replyAck, State.replyErr]
@[simp] theorem State.decodeFrame_explen (s : State) (n : Nat) : (s.decodeFrame n).explen = s.explen := by unfold State.decodeFrame; split <;> simp [State.replyAck, State.replyErr]
@[simp] theorem State.decodeFrame_tb (s : State) (n : Nat) : (s.decodeFrame n).tb = s.tb := by unfold State.decodeFrame; split <;> simp [State.replyAck, State.replyErr]
@[simp] theorem State.decodeFrame_tidx (s : State) (n : Nat) : (s.decodeFrame n).tidx = s.tidx := by unfold State.decodeFrame; split <;> simp [State.replyAck, State.replyErr]
@[simp] theorem State.decodeFrame_tlen (s : State) (n : Nat) : (s.decodeFrame n).tlen = s.tlen := by unfold State.decodeFrame; split <;> simp [State.replyAck, State.replyErr]
@[simp] theorem State.decodeFrame_tdev (s : State) (n : Nat) : (s.decodeFrame n).tdev = s.tdev := by unfold State.decodeFrame; split <;> simp [State.replyAck, State.replyErr]
@[simp] theorem State.decodeFrame_tval (s : State) (n : Nat) : (s.decodeFrame n).tval = s.tval := by unfold State.decodeFrame; split <;> simp [State.replyAck, State.replyErr]
@[simp] theorem State.decodeFrame_pendLedFtsw (s : State) (n : Nat) : (s.decodeFrame n).pendLedFtsw = s.pendLedFtsw := by unfold State.decodeFrame; split <;> simp [State.replyAck, State.replyErr]
@[simp] theorem State.decodeFrame_pendLedExp (s : State) (n : Nat) : (s.decodeFrame n).pendLedExp = s.pendLedExp := by unfold State.decodeFrame; split <;> simp [State.replyAck, State.replyErr]
@[simp] theorem State.decodeFrame_pendNum (s : State) (n : Nat) : (s.decodeFrame n).pendNum = s.pendNum := by unfold State.decodeFrame; split <;> simp [State.replyAck, State.replyErr]
@[simp] theorem State.decodeFrame_quiet (s : State) (n : Nat) : (s.decodeFrame n).quiet = s.quiet := by unfold State.decodeFrame; split <;> simp [State.replyAck, State.replyErr]
@[simp] theorem State.decodeFrame_mode (s : State) (n : Nat) : (s.decodeFrame n).mode = s.mode := by unfold State.decodeFrame; split <;> simp [State.replyAck, State.replyErr]
@[simp] theorem State.decodeFrame_input (s : State) (n : Nat) : (s.decodeFrame n).input = s.input := by unfold State.decodeFrame; split <;> simp [State.replyAck, State.replyErr]
@[simp] theorem State.decodeFrame_call (s : State) (n : Nat) : (s.decodeFrame n).call = s.call := by unfold State.decodeFrame; split <;> simp [State.replyAck, State.replyErr]
@[simp] theorem State.decodeFrame_pass (s : State) (n : Nat) : (s.decodeFrame n).pass = s.pass := by unfold State.decodeFrame; split <;> simp [State.replyAck, State.replyErr]

/-! `State.frameComplete` -/
@[simp] theorem State.frameComplete_cfg (s : State) : s.frameComplete.cfg = s.cfg := by unfold State.frameComplete; split <;> simp
@[simp] theorem State.frameComplete_fb (s : State) : s.frameComplete.fb = s.fb := by unfold State.frameComplete; split <;> simp
@[simp] theorem State.frameComplete_tb (s : State) : s.frameComplete.tb = s.tb := by unfold State.frameComplete; split <;> simp
@[simp] theorem State.frameComplete_tidx (s : State) : s.frameComplete.tidx = s.tidx := by unfold State.frameComplete; split <;> simp
@[simp] theorem State.frameComplete_tlen (s : State) : s.frameComplete.tlen = s.tlen := by unfold State.frameComplete; split <;> simp
@[simp] theorem State.frameComplete_tdev (s : State) : s.frameComplete.tdev = s.tdev := by unfold State.frameComplete; split <;> simp
@[simp] theorem State.frameComplete_tval (s : State) : s.frameComplete.tval = s.tval := by unfold State.frameComplete; split <;> simp
@[simp] theorem State.frameComplete_pendLedFtsw (s : State) : s.frameComplete.pendLedFtsw = s.pendLedFtsw := by unfold State.frameComplete; split <;> simp
@[simp] theorem State.frameComplete_pendLedExp (s : State) : s.frameComplete.pendLedExp = s.pendLedExp := by unfold State.frameComplete; split <;> simp
@[simp] theorem State.frameComplete_pendNum (s : State) : s.frameComplete.pendNum = s.pendNum := by unfold State.frameComplete; split <;> simp
@[simp] theorem State.frameComplete_quiet (s : State) : s.frameComplete.quiet = s.quiet := by unfold State.frameComplete; split <;> simp
@[simp] theorem State.frameComplete_mode (s : State) : s.frameComplete.mode = s.mode := by unfold State.frameComplete; split <;> simp
@[simp] theorem State.frameComplete_input (s : State) : s.frameComplete.input = s.input := by unfold State.frameComplete; split <;> simp
@[simp] theorem State.frameComplete_call (s : State) : s.frameComplete.call = s.call := by unfold State.frameComplete; split <;> simp
@[simp] theorem State.frameComplete_pass (s : State) : s.frameComplete.pass = s.pass := by unfold State.frameComplete; split <;> simp

/-! `State.quietTick` -/
@[simp] theorem State.quietTick_cfg (s : State) : s.quietTick.cfg = s.cfg := rfl
@[simp] theorem State.quietTick_fb (s : State) : s.quietTick.fb = s.fb := rfl
@[simp] theorem State.quietTick_plen (s : State) : s.quietTick.plen = s.plen := rfl
@[simp] theorem State.quietTick_explen (s : State) : s.quietTick.explen = s.explen := rfl
@[simp] theorem State.quietTick_tb (s : State) : s.quietTick.tb = s.tb := rfl
@[simp] theorem State.quietTick_txp (s : State) : s.quietTick.txp = s.txp := rfl
@[simp] theorem State.quietTick_tidx (s : State) : s.quietTick.tidx = s.tidx := rfl
@[simp] theorem State.quietTick_tlen (s : State) : s.quietTick.tlen = s.tlen := rfl
@[simp] theorem State.quietTick_tmr (s : State) : s.quietTick.tmr = s.tmr := rfl
@[simp] theorem State.quietTick_tdev (s : State) : s.quietTick.tdev = s.tdev := rfl
@[simp] theorem State.quietTick_tval (s : State) : s.quietTick.tval = s.tval := rfl
@[simp] theorem State.quietTick_ftsw (s : State) : s.quietTick.ftsw = s.ftsw := rfl
@[simp] theorem State.quietTick_exp (s : State) : s.quietTick.exp = s.exp := rfl
@[simp] theorem State.quietTick_pendLedFtsw (s : State) : s.quietTick.pendLedFtsw = s.pendLedFtsw := rfl
@[simp] theorem State.quietTick_pendLedExp (s : State) : s.quietTick.pendLedExp = s.pendLedExp := rfl
@[simp] theorem State.quietTick_pendNum (s : State) : s.quietTick.pendNum = s.pendNum := rfl
@[simp] theorem State.quietTick_eq (s : State) : s.quietTick.eq = s.eq := rfl
@[simp] theorem State.quietTick_mode (s : State) : s.quietTick.mode = s.mode := rfl
@[simp] theorem State.quietTick_input (s : State) : s.quietTick.input = s.input := rfl
@[simp] theorem State.quietTick_trace (s : State) : s.quietTick.trace = s.trace := rfl
@[simp] theorem State.quietTick_call (s : State) : s.quietTick.call = s.call := rfl
@[simp] theorem State.quietTick_pass (s : State) : s.quietTick.pass = s.pass := rfl

/-! `State.phaseTick` -/
@[simp] theorem State.phaseTick_cfg (s : State) : s.phaseTick.cfg = s.cfg := by unfold State.phaseTick; split <;> dsimp only <;> (try split) <;> simp
@[simp] theorem State.phaseTick_fb (s : State) : s.phaseTick.fb = s.fb := by unfold State.phaseTick; split <;> dsimp only <;> (try split) <;> simp
@[simp] theorem State.phaseTick_plen (s : State) : s.phaseTick.plen = s.plen := by unfold State.phaseTick; split <;> dsimp only <;> (try split) <;> simp
@[simp] theorem State.phaseTick_explen (s : State) : s.phaseTick.explen = s.explen := by unfold State.phaseTick; split <;> dsimp only <;> (try split) <;> simp
@[simp] theorem State.phaseTick_tb (s : State) : s.phaseTick.tb = s.tb := by unfold State.phaseTick; split <;> dsimp only <;> (try split) <;> simp
@[simp] theorem State.phaseTick_tidx (s : State) : s.phaseTick.tidx = s.tidx := by unfold State.phaseTick; split <;> dsimp only <;> (try split) <;> simp
@[simp] theorem State.phaseTick_tlen (s : State) : s.phaseTick.tlen = s.tlen := by unfold State.phaseTick; split <;> dsimp only <;> (try split) <;> simp
@[simp] theorem State.phaseTick_tdev (s : State) : s.phaseTick.tdev = s.tdev := by unfold State.phaseTick; split <;> dsimp only <;> (try split) <;> simp
@[simp] theorem State.phaseTick_tval (s : State) : s.phaseTick.tval = s.tval := by unfold State.phaseTick; split <;> dsimp only <;> (try split) <;> simp
@[simp] theorem State.phaseTick_pendLedFtsw (s : State) : s.phaseTick.pendLedFtsw = s.pendLedFtsw := by unfold State.phaseTick; split <;> dsimp only <;> (try split) <;> simp
@[simp] theorem State.phaseTick_pendLedExp (s : State) : s.phaseTick.pendLedExp = s.pendLedExp := by unfold State.phaseTick; split <;> dsimp only <;> (try split) <;> simp
@[simp] theorem State.phaseTick_pendNum (s : State) : s.phaseTick.pendNum = s.pendNum := by unfold State.phaseTick; split <;> dsimp only <;> (try split) <;> simp
@[simp] theorem State.phaseTick_quiet (s : State) : s.phaseTick.quiet = s.quiet := by unfold State.phaseTick; split <;> dsimp only <;> (try split) <;> simp
@[simp] theorem State.phaseTick_mode (s : State) : s.phaseTick.mode = s.mode := by unfold State.phaseTick; split <;> dsimp only <;> (try split) <;> simp
@[simp] theorem State.phaseTick_input (s : State) : s.phaseTick.input = s.input := by unfold State.phaseTick; split <;> dsimp only <;> (try split) <;> simp
@[simp] theorem State.phaseTick_call (s : State) : s.phaseTick.call = s.call := by unfold State.phaseTick; split <;> dsimp only <;> (try split) <;> simp
@[simp] theorem State.phaseTick_pass (s : State) : s.phaseTick.pass = s.pass := by unfold State.phaseTick; split <;> dsimp only <;> (try split) <;> simp

/-! `State.takeNoByte` -/
@[simp] theorem State.takeNoByte_cfg (s : State) : s.takeNoByte.cfg = s.cfg := rfl
@[simp] theorem State.takeNoByte_fb (s : State) : s.takeNoByte.fb = s.fb := rfl
@[simp] theorem State.takeNoByte_plen (s : State) : s.takeNoByte.plen = s.plen := rfl
@[simp] theorem State.takeNoByte_explen (s : State) : s.takeNoByte.explen = s.explen := rfl
@[simp] theorem State.takeNoByte_tb (s : State) : s.takeNoByte.tb = s.tb := rfl
@[simp] theorem State.takeNoByte_txp (s : State) : s.takeNoByte.txp = s.txp := rfl
@[simp] theorem State.takeNoByte_tidx (s : State) : s.takeNoByte.tidx = s.tidx := rfl
@[simp] theorem State.takeNoByte_tlen (s : State) : s.takeNoByte.tlen = s.tlen := rfl
@[simp] theorem State.takeNoByte_tmr (s : State) : s.takeNoByte.tmr = s.tmr := rfl
@[simp] theorem State.takeNoByte_tdev (s : State) : s.takeNoByte.tdev = s.tdev := rfl
@[simp] theorem State.takeNoByte_tval (s : State) : s.takeNoByte.tval = s.tval := rfl
@[simp] theorem State.takeNoByte_ftsw (s : State) : s.takeNoByte.ftsw = s.ftsw := rfl
@[simp] theorem State.takeNoByte_exp (s : State) : s.takeNoByte.exp = s.exp := rfl
@[simp] theorem State.takeNoByte_pendLedFtsw (s : State) : s.takeNoByte.pendLedFtsw = s.pendLedFtsw := rfl
@[simp] theorem State.takeNoByte_pendLedExp (s : State) : s.takeNoByte.pendLedExp = s.pendLedExp := rfl
@[simp] theorem State.takeNoByte_pendNum (s : State) : s.takeNoByte.pendNum = s.pendNum := rfl
@[simp] theorem State.takeNoByte_eq (s : State) : s.takeNoByte.eq = s.eq := rfl
@[simp] theorem State.takeNoByte_quiet (s : State) : s.takeNoByte.quiet = s.quiet := rfl
@[simp] theorem State.takeNoByte_mode (s : State) : s.takeNoByte.mode = s.mode := rfl
@[simp] theorem State.takeNoByte_trace (s : State) : s.takeNoByte.trace = s.trace := rfl
@[simp] theorem State.takeNoByte_call (s : State) : s.takeNoByte.call = s.call := rfl
@[simp] theorem State.takeNoByte_pass (s : State) : s.takeNoByte.pass = s.pass := rfl

/-! `State.endDrain` -/
@[simp] theorem State.endDrain_cfg (s : State) : s.endDrain.cfg = s.cfg := by unfold State.endDrain; simp only []; split <;> simp
@[simp] theorem State.endDrain_fb (s : State) : s.endDrain.fb = s.fb := by unfold State.endDrain; simp only []; split <;> simp
@[simp] theorem State.endDrain_plen (s : State) : s.endDrain.plen = s.plen := by unfold State.endDrain; simp only []; split <;> simp
@[simp] theorem State.endDrain_explen (s : State) : s.endDrain.explen = s.explen := by unfold State.endDrain; simp only []; split <;> simp
@[simp] theorem State.endDrain_tb (s : State) : s.endDrain.tb = s.tb := by unfold State.endDrain; simp only []; split <;> simp
@[simp] theorem State.endDrain_txp (s : State) : s.endDrain.txp = s.txp := by unfold State.endDrain; simp only []; split <;> simp
@[simp] theorem State.endDrain_tidx (s : State) : s.endDrain.tidx = s.tidx := by unfold State.endDrain; simp only []; split <;> simp
@[simp] theorem State.endDrain_tlen (s : State) : s.endDrain.tlen = s.tlen := by unfold State.endDrain; simp only []; split <;> simp
@[simp] theorem State.endDrain_tmr (s : State) : s.endDrain.tmr = s.tmr := by unfold State.endDrain; simp only []; split <;> simp
@[simp] theorem State.endDrain_tdev (s : State) : s.endDrain.tdev = s.tdev := by unfold State.endDrain; simp only []; split <;> simp
@[simp] theorem State.endDrain_tval (s : State) : s.endDrain.tval = s.tval := by unfold State.endDrain; simp only []; split <;> simp
@[simp] theorem State.endDrain_ftsw (s : State) : s.endDrain.ftsw = s.ftsw := by unfold State.endDrain; simp only []; split <;> simp
@[simp] theorem State.endDrain_exp (s : State) : s.endDrain.exp = s.exp := by unfold State.endDrain; simp only []; split <;> simp
@[simp] theorem State.endDrain_pendLedFtsw (s : State) : s.endDrain.pendLedFtsw = s.pendLedFtsw := by unfold State.endDrain; simp only []; split <;> simp
@[simp] theorem State.endDrain_pendLedExp (s : State) : s.endDrain.pendLedExp = s.pendLedExp := by unfold State.endDrain; simp only []; split <;> simp
@[simp] theorem State.endDrain_pendNum (s : State) : s.endDrain.pendNum = s.pendNum := by unfold State.endDrain; simp only []; split <;> simp
@[simp] theorem State.endDrain_quiet (s : State) : s.endDrain.quiet = s.quiet := by unfold State.endDrain; simp only []; split <;> simp
@[simp] theorem State.endDrain_mode (s : State) : s.endDrain.mode = s.mode := by unfold State.endDrain; simp only []; split <;> simp

/-! `State.endPass` -/
@[simp] theorem State.endPass_cfg (s : State) : s.endPass.cfg = s.cfg := by unfold State.endPass; simp only []; split <;> simp
@[simp] theorem State.endPass_fb (s : State) : s.endPass.fb = s.fb := by unfold State.endPass; simp only []; split <;> simp
@[simp] theorem State.endPass_plen (s : State) : s.endPass.plen = s.plen := by unfold State.endPass; simp only []; split <;> simp
@[simp] theorem State.endPass_explen (s : State) : s.endPass.explen = s.explen := by unfold State.endPass; simp only []; split <;> simp
@[simp] theorem State.endPass_tb (s : State) : s.endPass.tb = s.tb := by unfold State.endPass; simp only []; split <;> simp
@[simp] theorem State.endPass_txp (s : State) : s.endPass.txp = s.txp := by unfold State.endPass; simp only []; split <;> simp
@[simp] theorem State.endPass_tidx (s : State) : s.endPass.tidx = s.tidx := by unfold State.endPass; simp only []; split <;> simp
@[simp] theorem State.endPass_tlen (s : State) : s.endPass.tlen = s.tlen := by unfold State.endPass; simp only []; split <;> simp
@[simp] theorem State.endPass_tmr (s : State) : s.endPass.tmr = s.tmr := by unfold State.endPass; simp only []; split <;> simp
@[simp] theorem State.endPass_tdev (s : State) : s.endPass.tdev = s.tdev := by unfold State.endPass; simp only []; split <;> simp
@[simp] theorem State.endPass_tval (s : State) : s.endPass.tval = s.tval := by unfold State.endPass; simp only []; split <;> simp
@[simp] theorem State.endPass_ftsw (s : State) : s.endPass.ftsw = s.ftsw := by unfold State.endPass; simp only []; split <;> simp
@[simp] theorem State.endPass_exp (s : State) : s.endPass.exp = s.exp := by unfold State.endPass; simp only []; split <;> simp
@[simp] theorem State.endPass_pendLedFtsw (s : State) : s.endPass.pendLedFtsw = s.pendLedFtsw := by unfold State.endPass; simp only []; split <;> simp
@[simp] theorem State.endPass_pendLedExp (s : State) : s.endPass.pendLedExp = s.pendLedExp := by unfold State.endPass; simp only []; split <;> simp
@[simp] theorem State.endPass_pendNum (s : State) : s.endPass.pendNum = s.pendNum := by unfold State.endPass; simp only []; split <;> simp
@[simp] theorem State.endPass_quiet (s : State) : s.endPass.quiet = s.quiet := by unfold State.endPass; simp only []; split <;> simp
@[simp] theorem State.endPass_mode (s : State) : s.endPass.mode = s.mode := by unfold State.endPass; simp only []; split <;> simp
@[simp] theorem State.endPass_input (s : State) : s.endPass.input = s.input := by unfold State.endPass; simp only []; split <;> simp

/-! `State.gateTest` -/
@[simp] theorem State.gateTest_cfg (s : State) : s.gateTest.cfg = s.cfg := by unfold State.gateTest; split <;> rfl
@[simp] theorem State.gateTest_fb (s : State) : s.gateTest.fb = s.fb := by unfold State.gateTest; split <;> rfl
@[simp] theorem State.gateTest_plen (s : State) : s.gateTest.plen = s.plen := by unfold State.gateTest; split <;> rfl
@[simp] theorem State.gateTest_explen (s : State) : s.gateTest.explen = s.explen := by unfold State.gateTest; split <;> rfl
@[simp] theorem State.gateTest_tb (s : State) : s.gateTest.tb = s.tb := by unfold State.gateTest; split <;> rfl
@[simp] theorem State.gateTest_txp (s : State) : s.gateTest.txp = s.txp := by unfold State.gateTest; split <;> rfl
@[simp] theorem State.gateTest_tidx (s : State) : s.gateTest.tidx = s.tidx := by unfold State.gateTest; split <;> rfl
@[simp] theorem State.gateTest_tlen (s : State) : s.gateTest.tlen = s.tlen := by unfold State.gateTest; split <;> rfl
@[simp] theorem State.gateTest_tmr (s : State) : s.gateTest.tmr = s.tmr := by unfold State.gateTest; split <;> rfl
@[simp] theorem State.gateTest_tdev (s : State) : s.gateTest.tdev = s.tdev := by unfold State.gateTest; split <;> rfl
@[simp] theorem State.gateTest_tval (s : State) : s.gateTest.tval = s.tval := by unfold State.gateTest; split <;> rfl
@[simp] theorem State.gateTest_ftsw (s : State) : s.gateTest.ftsw = s.ftsw := by unfold State.gateTest; split <;> rfl
@[simp] theorem State.gateTest_exp (s : State) : s.gateTest.exp = s.exp := by unfold State.gateTest; split <;> rfl
@[simp] theorem State.gateTest_pendLedFtsw (s : State) : s.gateTest.pendLedFtsw = s.pendLedFtsw := by unfold State.gateTest; split <;> rfl
@[simp] theorem State.gateTest_pendLedExp (s : State) : s.gateTest.pendLedExp = s.pendLedExp := by unfold State.gateTest; split <;> rfl
@[simp] theorem State.gateTest_pendNum (s : State) : s.gateTest.pendNum = s.pendNum := by unfold State.gateTest; split <;> rfl
@[simp] theorem State.gateTest_eq (s : State) : s.gateTest.eq = s.eq := by unfold State.gateTest; split <;> rfl
@[simp] theorem State.gateTest_quiet (s : State) : s.gateTest.quiet = s.quiet := by unfold State.gateTest; split <;> rfl
@[simp] theorem State.gateTest_mode (s : State) : s.gateTest.mode = s.mode := by unfold State.gateTest; split <;> rfl
@[simp] theorem State.gateTest_input (s : State) : s.gateTest.input = s.input := by unfold State.gateTest; split <;> rfl
@[simp] theorem State.gateTest_trace (s : State) : s.gateTest.trace = s.trace := by unfold State.gateTest; split <;> rfl
@[simp] theorem State.gateTest_call (s : State) : s.gateTest.call = s.call := by unfold State.gateTest; split <;> rfl

/-! `State.startDrain` -/
@[simp] theorem State.startDrain_cfg (s : State) : s.startDrain.cfg = s.cfg := rfl
@[simp] theorem State.startDrain_fb (s : State) : s.startDrain.fb = s.fb := rfl
@[simp] theorem State.startDrain_plen (s : State) : s.startDrain.plen = s.plen := rfl
@[simp] theorem State.startDrain_explen (s : State) : s.startDrain.explen = s.explen := rfl
@[simp] theorem State.startDrain_tb (s : State) : s.startDrain.tb = s.tb := rfl
@[simp] theorem State.startDrain_txp (s : State) : s.startDrain.txp = s.txp := rfl
@[simp] theorem State.startDrain_tidx (s : State) : s.startDrain.tidx = s.tidx := rfl
@[simp] theorem State.startDrain_tlen (s : State) : s.startDrain.tlen = s.tlen := rfl
@[simp] theorem State.startDrain_tmr (s : State) : s.startDrain.tmr = s.tmr := rfl
@[simp] theorem State.startDrain_tdev (s : State) : s.startDrain.tdev = s.tdev := rfl
@[simp] theorem State.startDrain_tval (s : State) : s.startDrain.tval = s.tval := rfl
@[simp] theorem State.startDrain_ftsw (s : State) : s.startDrain.ftsw = s.ftsw := rfl
@[simp] theorem State.startDrain_exp (s : State) : s.startDrain.exp = s.exp := rfl
@[simp] theorem State.startDrain_pendLedFtsw (s : State) : s.startDrain.pendLedFtsw = s.pendLedFtsw := rfl
@[simp] theorem State.startDrain_pendLedExp (s : State) : s.startDrain.pendLedExp = s.pendLedExp := rfl
@[simp] theorem State.startDrain_pendNum (s : State) : s.startDrain.pendNum = s.pendNum := rfl
@[simp] theorem State.startDrain_eq (s : State) : s.startDrain.eq = s.eq := rfl
@[simp] theorem State.startDrain_quiet (s : State) : s.startDrain.quiet = s.quiet := rfl
@[simp] theorem State.startDrain_mode (s : State) : s.startDrain.mode = s.mode := rfl
@[simp] theorem State.startDrain_input (s : State) : s.startDrain.input = s.input := rfl
@[simp] theorem State.startDrain_trace (s : State) : s.startDrain.trace = s.trace := rfl
@[simp] theorem State.startDrain_pass (s : State) : s.startDrain.pass = s.pass := rfl

/-! `State.pollBody` -/
@[simp] theorem State.pollBody_cfg (s : State) : s.pollBody.cfg = s.cfg := by
  unfold State.pollBody; split; · simp
  split; · simp
  split <;> simp
@[simp] theorem State.pollBody_fb (s : State) : s.pollBody.fb = s.fb := by
  unfold State.pollBody; split; · simp
  split; · simp
  split <;> simp
@[simp] theorem State.pollBody_plen (s : State) : s.pollBody.plen = s.plen := by
  unfold State.pollBody; split; · simp
  split; · simp
  split <;> simp
@[simp] theorem State.pollBody_explen (s : State) : s.pollBody.explen = s.explen := by
  unfold State.pollBody; split; · simp
  split; · simp
  split <;> simp
@[simp] theorem State.pollBody_tb (s : State) : s.pollBody.tb = s.tb := by
  unfold State.pollBody; split; · simp
  split; · simp
  split <;> simp
@[simp] theorem State.pollBody_txp (s : State) : s.pollBody.txp = s.txp := by
  unfold State.pollBody; split; · simp
  split; · simp
  split <;> simp
@[simp] theorem State.pollBody_tidx (s : State) : s.pollBody.tidx = s.tidx := by
  unfold State.pollBody; split; · simp
  split; · simp
  split <;> simp
@[simp] theorem State.pollBody_tlen (s : State) : s.pollBody.tlen = s.tlen := by
  unfold State.pollBody; split; · simp
  split; · simp
  split <;> simp
@[simp] theorem State.pollBody_tmr (s : State) : s.pollBody.tmr = s.tmr := by
  unfold State.pollBody; split; · simp
  split; · simp
  split <;> simp
@[simp] theorem State.pollBody_tdev (s : State) : s.pollBody.tdev = s.tdev := by
  unfold State.pollBody; split; · simp
  split; · simp
  split <;> simp
@[simp] theorem State.pollBody_tval (s : State) : s.pollBody.tval = s.tval := by
  unfold State.pollBody; split; · simp
  split; · simp
  split <;> simp
@[simp] theorem State.pollBody_ftsw (s : State) : s.pollBody.ftsw = s.ftsw := by
  unfold State.pollBody; split; · simp
  split; · simp
  split <;> simp
@[simp] theorem State.pollBody_exp (s : State) : s.pollBody.exp = s.exp := by
  unfold State.pollBody; split; · simp
  split; · simp
  split <;> simp
@[simp] theorem State.pollBody_pendLedFtsw (s : State) : s.pollBody.pendLedFtsw = s.pendLedFtsw := by
  unfold State.pollBody; split; · simp
  split; · simp
  split <;> simp
@[simp] theorem State.pollBody_pendLedExp (s : State) : s.pollBody.pendLedExp = s.pendLedExp := by
  unfold State.pollBody; split; · simp
  split; · simp
  split <;> simp
@[simp] theorem State.pollBody_pendNum (s : State) : s.pollBody.pendNum = s.pendNum := by
  unfold State.pollBody; split; · simp
  split; · simp
  split <;> simp
@[simp] theorem State.pollBody_quiet (s : State) : s.pollBody.quiet = s.quiet := by
  unfold State.pollBody; split; · simp
  split; · simp
  split <;> simp
@[simp] theorem State.pollBody_mode (s : State) : s.pollBody.mode = s.mode := by
  unfold State.pollBody; split; · simp
  split; · simp
  split <;> simp

/-! `State.clearState` -/
@[simp] theorem State.clearState_cfg (s : State) : s.clearState.cfg = s.cfg := rfl
@[simp] theorem State.clearState_pendLedFtsw (s : State) : s.clearState.pendLedFtsw = s.pendLedFtsw := rfl
@[simp] theorem State.clearState_pendLedExp (s : State) : s.clearState.pendLedExp = s.pendLedExp := rfl
@[simp] theorem State.clearState_pendNum (s : State) : s.clearState.pendNum = s.pendNum := rfl
@[simp] theorem State.clearState_mode (s : State) : s.clearState.mode = s.mode := rfl
@[simp] theorem State.clearState_input (s : State) : s.clearState.input = s.input := rfl
@[simp] theorem State.clearState_trace (s : State) : s.clearState.trace = s.trace := rfl
@[simp] theorem State.clearState_call (s : State) : s.clearState.call = s.call := rfl
@[simp] theorem State.clearState_pass (s : State) : s.clearState.pass = s.pass := rfl

end Sys2Proof.Machine
end

