-- ==== Sys2Proof/Laws/Ops.lean ====
section
/-! SUPPORT. One lemma per shared operation that says once what it can do, and the small lemmas of the operand and
selection functions. -/

namespace Sys2Proof

theorem xorAll_append (xs ys : List Byte) : xorAll (xs ++ ys) = xorAll xs ^^^ xorAll ys := by
  induction xs with
  | nil => simp [xorAll]
  | cons x xs ih => simp [xorAll, ih, BitVec.xor_assoc]

theorem cks_cons (b : Byte) (rest : List Byte) : cks (b :: rest) = xorAll rest := rfl

theorem Config.cmdKind_cmd {c : Config} (h : c.Valid) (k : Kind) : c.cmdKind (c.cmd k) = some k := by
  have distinct : ∀ j l, j ≠ l → c.cmd j ≠ c.cmd l := fun j l hne e => hne (h.cmdInj j l e)
  have h1 : c.cmdBtn ≠ c.cmdInit := distinct .btn .init (by decide)
  have h2 : c.cmdPos ≠ c.cmdInit := distinct .pos .init (by decide)
  have h3 : c.cmdPos ≠ c.cmdBtn := distinct .pos .btn (by decide)
  have h4 : c.cmdDbtn ≠ c.cmdInit := distinct .dbtn .init (by decide)
  have h5 : c.cmdDbtn ≠ c.cmdBtn := distinct .dbtn .btn (by decide)
  have h6 : c.cmdDbtn ≠ c.cmdPos := distinct .dbtn .pos (by decide)
  cases k <;> simp [Config.cmdKind, Config.cmd, h1, h2, h3, h4, h5, h6]

theorem Config.eq_cmd_of_cmdKind {c : Config} {b : Byte} {k : Kind} (h : c.cmdKind b = some k) : b = c.cmd k := by
  unfold Config.cmdKind at h
  (repeat' split at h) <;> simp at h <;> subst h <;> assumption

theorem Config.cmdKind_eq_some {c : Config} (h : c.Valid) (b : Byte) (k : Kind) :
    c.cmdKind b = some k ↔ b = c.cmd k :=
  ⟨Config.eq_cmd_of_cmdKind, fun e => e ▸ Config.cmdKind_cmd h k⟩

theorem Config.cmdKind_eq_none {c : Config} (h : c.Valid) (b : Byte) :
    c.cmdKind b = none ↔ ∀ k, b ≠ c.cmd k := by
  constructor
  · intro hn k e
    rw [e, Config.cmdKind_cmd h] at hn
    cases hn
  · intro hn
    cases hk : c.cmdKind b with
    | none => rfl
    | some k => exact absurd (Config.eq_cmd_of_cmdKind hk) (hn k)

theorem Config.devOf_idOf {c : Config} (h : c.Valid) (d : Device) : c.devOf (c.idOf d) = some d := by
  have := h.idInj
  cases d <;> simp [Config.devOf, Config.idOf, Ne.symm this]

theorem Config.idOf_of_devOf {c : Config} {b : Byte} {d : Device} (h : c.devOf b = some d) : b = c.idOf d := by
  unfold Config.devOf at h
  (repeat' split at h) <;> simp at h <;> subst h <;> assumption

namespace Machine

theorem State.perform_selected {s : State} {i : Instr} {op : State → State} (h : s.selects i = true) :
    s.perform i op = .next (op s) := by simp [State.perform, h]

theorem State.perform_not_selected {s : State} {i : Instr} {op : State → State} (h : s.selects i = false) :
    s.perform i op = .next s := by simp [State.perform, h]

/-- `Push`: room or no room (R251). -/
theorem State.push_cases (s : State) (e : Event) :
    (s.eq.length < s.cfg.queueCap ∧ s.push e = { s with eq := s.eq ++ [e], trace := s.trace ++ [.ev e] }) ∨
    (s.cfg.queueCap ≤ s.eq.length ∧
      s.push e = { s with trace := s.trace ++ [.drop e, .err (.queueOverflow e)] }) := by
  unfold State.push
  split
  · exact .inl ⟨‹_›, rfl⟩
  · exact .inr ⟨by omega, by simp [State.emit]⟩

/-- `Pop` and return (R252). -/
theorem State.popRet_cases (s : State) :
    (s.eq = [] ∧ s.popRet = { s with trace := s.trace ++ [.ret none] }) ∨
    ∃ e rest, s.eq = e :: rest ∧ s.popRet = { s with eq := rest, trace := s.trace ++ [.ret (some e)] } := by
  unfold State.popRet
  split
  · exact .inl ⟨‹_›, rfl⟩
  · exact .inr ⟨_, _, ‹_›, rfl⟩

/-- `DEV_FAIL`: the counting arm (R222) or the eviction arm (R223). -/
theorem State.devFail_cases (s : State) (d : Device) :
    ((s.dev d).errCnt + 1 < s.cfg.errThreshold ∧
      s.devFail d = s.setDev d { s.dev d with errCnt := (s.dev d).errCnt + 1 }) ∨
    (s.cfg.errThreshold ≤ (s.dev d).errCnt + 1 ∧ s.devFail d = (s.zeroDev d).push (.deviceOffline d)) := by
  unfold State.devFail
  split
  · exact .inl ⟨‹_›, rfl⟩
  · exact .inr ⟨by omega, rfl⟩

/-- `TX_START`: started, or refused without effect (R180, R194). -/
theorem State.txStart_cases (s : State) (d : Device) (v : TxVal) (body : List Byte) :
    (s.txStartOk d body = true ∧
      s.txStart d v body = { s with
        tb := (s.storeTb (withCks body)).tb
        tlen := Fin.ofNat 10 (body.length + 1)
        tidx := 0
        tdev := d
        tval := v
        txp := .echo
        tmr := 0
        trace := s.trace ++ [.tx (body.headD 0)] }) ∨
    (s.txStartOk d body = false ∧ s.txStart d v body = s) := by
  unfold State.txStart
  split
  · exact .inl ⟨‹_›, rfl⟩
  · exact .inr ⟨by simp_all, rfl⟩

/-- The end of a drain (R300): a refresh pass begins, or one event is returned. -/
theorem State.endDrain_cases (s : State) :
    (s.gate = true ∧ s.anyDirty = true ∧
      s.endDrain = { s.takeNoByte with pass := some .ftswLed, call := .passing }) ∨
    ((s.gate = false ∨ s.anyDirty = false) ∧ s.endDrain = { s.takeNoByte.popRet with call := .none }) := by
  have hd : s.endDrain =
      if s.gate && s.anyDirty then { s.takeNoByte with pass := some .ftswLed, call := .passing }
      else { s.takeNoByte.popRet with call := .none } := rfl
  cases hg : s.gate <;> cases ha : s.anyDirty <;> simp [hd, hg, ha]

/-- The end of a pass (R299, R300). -/
theorem State.endPass_cases (s : State) :
    (s.call = .passing ∧ s.endPass = { State.popRet { s with pass := none } with call := .none }) ∨
    (s.call ≠ .passing ∧ s.endPass = { s with pass := none }) := by
  by_cases h : s.call = .passing <;> simp [State.endPass, h]

/-- The gate test outside a poll (R304). -/
theorem State.gateTest_cases (s : State) :
    (s.cfg.sched = .hardware ∧ s.call = .none ∧ s.pass = none ∧ s.gate = true ∧ s.anyDirty = true ∧
      s.gateTest = { s with pass := some .ftswLed }) ∨
    ((s.cfg.sched = .hardware → s.call = .none → s.pass = none → s.gate = true → s.anyDirty = false) ∧
      s.gateTest = s) := by
  unfold State.gateTest
  split
  · rename_i h
    simp at h
    exact .inl ⟨h.1.1.1.1, h.1.1.1.2, h.1.1.2, h.1.2, h.2, rfl⟩
  · rename_i h
    simp at h
    exact .inr ⟨h, rfl⟩

/-- The body of `poll`: `None` in mode RESETTING (R300), the pop alone (R304), the drain already over, or the drain
begun (R300). -/
theorem State.pollBody_cases (s : State) :
    (s.mode = .resetting ∧ s.pollBody = { s with trace := s.trace ++ [.ret none] }) ∨
    (s.mode = .run ∧ (s.cfg.sched = .hardware ∨ s.call ≠ .none) ∧ s.pollBody = s.popRet) ∨
    (s.mode = .run ∧ s.cfg.sched = .software ∧ s.call = .none ∧
      (s.txp ≠ .rpl ∧ s.byteWaiting = false ∧ s.pollBody = s.startDrain.endDrain ∨
        (s.txp = .rpl ∨ s.byteWaiting = true) ∧ s.pollBody = s.startDrain)) := by
  have hw : s.startDrain.byteWaiting = s.byteWaiting := rfl
  have hd : s.startDrain.call = .draining := rfl
  cases hm : s.mode <;> cases hs : s.cfg.sched <;> by_cases hc : s.call = .none <;> cases hp : s.txp <;>
    cases hb : s.byteWaiting <;>
    simp [State.pollBody, hm, hs, hc, State.drainOver, hw, hd, hp, hb, State.emit]

/-- One step: an operation run, or a move. -/
theorem step_run {s t : State} {i : Instr} (h : s.next = .run i t) : step s = exec i t := by
  simp [step, h]

theorem step_move {s t : State} (h : s.next = .move t) : step s = .next t := by
  simp [step, h]

end Machine

end Sys2Proof
end

