-- ==== Sys2Proof/Laws/PerInstr.lean ====
section
/-! SUPPORT. Laws made per operation, as syntax: the number of wire bytes an operation's encoding has. -/

namespace Sys2Proof.Laws.EncodingLength

open Sys2Proof

/-- How many wire bytes the operation table gives an operation: the frame's length (R92, R100, R101), one byte for
what is a single byte, none for a tick or a caller request (R113). -/
def rowBytes (c : Config) : Instr → Nat
  | .init _ _ => (c.len .init).val
  | .btn _ _ => (c.len .btn).val
  | .pos _ _ => (c.len .pos).val
  | .dbtn _ _ => (c.len .dbtn).val
  | .badsum k _ => (c.len k).val
  | .led _ _ => 5
  | .dig _ => 9
  | .unknownCmd _ => 1
  | .cmdStart _ => 1
  | .data _ => 1
  | .stray _ => 1
  | .replyAck => 1
  | .replyErr => 1
  | .rplEcho _ => 1
  | .echoOk _ => 1
  | .echoLast _ => 1
  | .echoMismatch _ => 1
  | .respAck => 1
  | .respError => 1
  | .respOther _ => 1
  | .tick => 0
  | .setLed _ _ => 0
  | .clearLed _ _ => 0
  | .setDisplayNumber _ => 0
  | .clearDisplayNumber => 0
  | .poll => 0
  | .reset => 0

/-- A well-formed operation is encoded in as many bytes as its row has. -/
def Statement (i : Instr) : Prop :=
  ∀ (c : Config) (ctx : Ctx), wellFormed c ctx i = true → (encode c i).length = rowBytes c i

theorem init (id : Byte) (payload : List Byte) : Statement (.init id payload) := by
  intro c ctx h
  simp [wellFormed, frameOk] at h
  simp [encode, withCks, rowBytes, ← h.2.2]
theorem btn (id : Byte) (payload : List Byte) : Statement (.btn id payload) := by
  intro c ctx h
  simp [wellFormed, frameOk] at h
  simp [encode, withCks, rowBytes, ← h.2.2]
theorem pos (id : Byte) (payload : List Byte) : Statement (.pos id payload) := by
  intro c ctx h
  simp [wellFormed, frameOk] at h
  simp [encode, withCks, rowBytes, ← h.2.2]
theorem dbtn (id : Byte) (payload : List Byte) : Statement (.dbtn id payload) := by
  intro c ctx h
  simp [wellFormed, frameOk] at h
  simp [encode, withCks, rowBytes, ← h.2.2]
theorem badsum (k : Kind) (body : List Byte) : Statement (.badsum k body) := by
  intro c ctx h
  simp [wellFormed, badBodyOk] at h
  simp [encode, rowBytes, ← h.2.1.1.2]
theorem unknownCmd (b : Byte) : Statement (.unknownCmd b) := fun _ _ _ => rfl
theorem cmdStart (k : Kind) : Statement (.cmdStart k) := fun _ _ _ => rfl
theorem data (b : Byte) : Statement (.data b) := fun _ _ _ => rfl
theorem stray (b : Byte) : Statement (.stray b) := fun _ _ _ => rfl
theorem replyAck : Statement .replyAck := fun _ _ _ => rfl
theorem replyErr : Statement .replyErr := fun _ _ _ => rfl
theorem rplEcho (b : Byte) : Statement (.rplEcho b) := fun _ _ _ => rfl
theorem led (d : Device) (m8 : Byte) : Statement (.led d m8) := fun _ _ _ => rfl
theorem dig (v : DisplayNum) : Statement (.dig v) := fun _ _ _ => rfl
theorem echoOk (b : Byte) : Statement (.echoOk b) := fun _ _ _ => rfl
theorem echoLast (b : Byte) : Statement (.echoLast b) := fun _ _ _ => rfl
theorem echoMismatch (b : Byte) : Statement (.echoMismatch b) := fun _ _ _ => rfl
theorem respAck : Statement .respAck := fun _ _ _ => rfl
theorem respError : Statement .respError := fun _ _ _ => rfl
theorem respOther (b : Byte) : Statement (.respOther b) := fun _ _ _ => rfl
theorem tick : Statement .tick := fun _ _ _ => rfl
theorem setLed (d : Device) (k : Fin 8) : Statement (.setLed d k) := fun _ _ _ => rfl
theorem clearLed (d : Device) (k : Fin 8) : Statement (.clearLed d k) := fun _ _ _ => rfl
theorem setDisplayNumber (v : Nat) : Statement (.setDisplayNumber v) := fun _ _ _ => rfl
theorem clearDisplayNumber : Statement .clearDisplayNumber := fun _ _ _ => rfl
theorem poll : Statement .poll := fun _ _ _ => rfl
theorem reset : Statement .reset := fun _ _ _ => rfl

end Sys2Proof.Laws.EncodingLength
end

