-- ==== Sys2Proof/Laws/Step.lean ====
section
/-! SUPPORT. What one step can do, said once: the effect of each operation, the two outcomes of `exec`, and the nine
cases of `step`. A proof about every step goes through these and unfolds neither. -/

namespace Sys2Proof.Machine

/-- The state an operation leads to when its selecting condition holds. -/
def State.effect (s : State) : Instr → State
  | .init id pl => (s.completeWith (cks (s.cfg.cmdInit :: id :: pl))).replyAck.doInit
  | .btn id pl => (s.completeWith (cks (s.cfg.cmdBtn :: id :: pl))).replyAck.doBtn
  | .pos id pl => (s.completeWith (cks (s.cfg.cmdPos :: id :: pl))).replyAck.doPos
  | .dbtn id pl => (s.completeWith (cks (s.cfg.cmdDbtn :: id :: pl))).replyAck.doDbtn
  | .unknownCmd b => (s.rxEvent b).rearm.raise (.unknownCommand b)
  | .cmdStart k =>
    let t := s.rxEvent (s.cfg.cmd k)
    { t with fb := t.fb.set 0 (t.cfg.cmd k), plen := 1, explen := t.cfg.len k }
  | .data b => ((s.rxEvent b).append b).frameComplete
  | .stray b => (s.rxEvent b).raise (.strayByte b)
  | .badsum _ body => (s.completeWith (body.getLastD 0)).replyErr
  | .replyAck => s.replyAck
  | .replyErr => s.replyErr
  | .rplEcho b => { s.rxEvent b with txp := .idle }
  | .led d m8 => s.txStart d (.led m8) (s.cfg.ledBody d m8)
  | .dig v => s.txStart .ftsw (.num v) (s.cfg.digBody v)
  | .echoOk b => { ({ s.rxEvent b with tidx := s.tidx + 1 }.busSend s.tb[s.tidx + 1]) with tmr := 0 }
  | .echoLast b => { s.rxEvent b with txp := .ackw, tmr := 0 }
  | .echoMismatch b => (s.rxEvent b).txFail .echoMismatch
  | .respAck => (s.rxEvent s.cfg.ack).txOk
  | .respError => (s.rxEvent s.cfg.error).txFail .errorReply
  | .respOther b => (s.rxEvent b).txFail .badReply
  | .tick => (s.emit .tick).quietTick.phaseTick
  | .setLed d k => (s.emit (.call (.setLed d k))).setPendLed d (s.pendLed d ||| ledBit k)
  | .clearLed d k => (s.emit (.call (.clearLed d k))).setPendLed d (s.pendLed d &&& ~~~ledBit k)
  | .setDisplayNumber v => { s.emit (.call (.setDisplayNumber v)) with pendNum := some (Fin.ofNat 1000 v) }
  | .clearDisplayNumber => { s.emit (.call .clearDisplayNumber) with pendNum := none }
  | .poll => (s.emit (.call .poll)).pollBody
  | .reset => { s.clearState with
      mode := .run
      trace := s.trace ++ [.call .reset, .enable false false, .setResetLine .low, .waitMs s.cfg.resetLowMs,
        .setResetLine .receiveCapable, .setBaud s.cfg.baud, .enable true true] }

/-- `exec` always answers a next state: the operation's effect if it is selected, the same state if not. -/
theorem exec_eq_effect (i : Instr) (s : State) :
    exec i s = .next (if s.selects i then s.effect i else s) := by
  cases i
  case reset => simp [exec, execReset, State.perform, State.selects, State.effect, State.emit, State.clearState]
  all_goals rfl

theorem exec_cases {i : Instr} {s t : State} (h : exec i s = .next t) :
    t = s ∨ (s.selects i = true ∧ t = s.effect i) := by
  rw [exec_eq_effect] at h
  cases hs : s.selects i <;> simp [hs] at h
  · exact .inl h.symm
  · exact .inr ⟨rfl, h.symm⟩

/-- What a whole inbound frame can decode to. -/
theorem decodeFrame_cases {c : Config} {bs : List Byte} {i : Instr} (h : decodeFrame c bs = .ok i) :
    (∃ k id pl, i = goodFrame k id pl) ∨ ∃ k body, i = .badsum k body := by
  unfold decodeFrame at h
  split at h
  · split at h
    · cases h
    · split at h
      · cases h
      · split at h
        · cases h
        · split at h <;> cases h
          · exact .inl ⟨_, _, _, rfl⟩
          · exact .inr ⟨_, _, rfl⟩
  · cases h

/-- What a received byte can select, by the phase (R130). -/
theorem State.rxInstr_cases (s : State) (b : Byte) :
    (s.txp = .rpl ∧ s.rxInstr b = .rplEcho b) ∨
    (s.txp = .echo ∧
      (s.rxInstr b = .echoOk b ∨ s.rxInstr b = .echoLast b ∨ s.rxInstr b = .echoMismatch b)) ∨
    (s.txp = .ackw ∧ (s.rxInstr b = .respAck ∨ s.rxInstr b = .respError ∨ s.rxInstr b = .respOther b)) ∨
    (s.txp = .idle ∧
      ((∃ k id pl, s.rxInstr b = goodFrame k id pl) ∨ (∃ k body, s.rxInstr b = .badsum k body) ∨
        (∃ k, s.rxInstr b = .cmdStart k) ∨ s.rxInstr b = .unknownCmd b ∨ s.rxInstr b = .data b ∨
        s.rxInstr b = .stray b)) := by
  unfold State.rxInstr State.rxContext
  cases hp : s.txp with
  | rpl => exact .inl ⟨rfl, rfl⟩
  | echo =>
    refine .inr (.inl ⟨rfl, ?_⟩)
    simp only [decode]
    split
    · split <;> simp
    · simp
  | ackw =>
    refine .inr (.inr (.inl ⟨rfl, ?_⟩))
    simp only [decode]
    split
    · simp
    · split <;> simp
  | idle =>
    refine .inr (.inr (.inr ⟨rfl, ?_⟩))
    have hc : (∃ k, decodeCommand s.cfg b = .cmdStart k) ∨ decodeCommand s.cfg b = .unknownCmd b := by
      unfold decodeCommand
      split
      · exact .inl ⟨_, rfl⟩
      · exact .inr rfl
    cases ht : top b
    · by_cases hl : s.plen.val < s.explen.val
      · by_cases he : s.plen.val + 1 = s.explen.val
        · simp only [hl, he, if_true, Bool.false_eq_true, if_false, decode]
          cases hd : Sys2Proof.decodeFrame s.cfg (s.partialFrame ++ [b]) with
          | error e => simp
          | ok i =>
            rcases decodeFrame_cases hd with h | h
            · exact .inl h
            · exact .inr (.inl h)
        · simp [hl, he, decode, ht]
      · simp [hl, decode, ht]
    · simp only [if_true, decode, ht]
      rcases hc with h | h
      · exact .inr (.inr (.inl h))
      · exact .inr (.inr (.inr (.inl h)))

/-- The operations the lines of a refresh pass run (R299). -/
theorem State.lineInstr_cases {s : State} {l l' : PassLine} {i : Instr} (h : s.lineInstr l = some (i, l')) :
    (∃ d, i = .led d (s.pendLed d)) ∨ i = .dig s.pendNum := by
  cases l <;> simp [State.lineInstr] at h
  · split at h
    · simp at h; exact .inl ⟨_, h.1.symm⟩
    · split at h
      · simp at h; exact .inr h.1.symm
      · simp at h; exact .inl ⟨_, h.2.1.symm⟩
  · split at h
    · simp at h; exact .inr h.1.symm
    · simp at h; exact .inl ⟨_, h.2.1.symm⟩
  · exact .inl ⟨_, h.2.1.symm⟩

/-- Everything one step can be: a line of the refresh pass, the end of the pass, the end of a drain, nothing (no input
left), a byte, a byte lost in mode RESETTING, no byte, a tick, or a caller request. -/
theorem step_cases {s t : State} (h : step s = .next t) :
    (∃ i l, s.txp = .idle ∧ s.pass ≠ none ∧ s.lineInstr (s.pass.getD .done) = some (i, l) ∧
      exec i { s with pass := some l } = .next t) ∨
    (s.txp = .idle ∧ s.pass ≠ none ∧ t = s.endPass) ∨
    (s.passReady = false ∧ s.drainOver = true ∧ t = s.endDrain) ∨
    t = s ∨
    (∃ b rest, s.passReady = false ∧ s.input = .rx b :: rest ∧ s.mode = .run ∧
      exec (s.rxInstr b) { s with input := rest } = .next t) ∨
    (∃ b rest, s.input = .rx b :: rest ∧ s.mode ≠ .run ∧ t = { s with input := rest }) ∨
    (∃ rest, s.input = .noByte :: rest ∧ t = State.gateTest { s with input := rest }) ∨
    (∃ rest, s.input = .tick :: rest ∧ exec .tick { s with input := rest } = .next t) ∨
    (∃ r rest, s.input = .call r :: rest ∧ exec r.instr { s with input := rest } = .next t) := by
  unfold step at h
  by_cases hp : s.passReady = true
  · have hp' : s.pass ≠ none ∧ s.txp = .idle := by simpa [State.passReady, State.txIdle] using hp
    have hn : s.next = s.nextInPass := by simp [State.next, hp]
    rw [hn] at h
    unfold State.nextInPass at h
    cases hl : s.lineInstr (s.pass.getD .done) with
    | none => simp [hl] at h; exact .inr (.inl ⟨hp'.2, hp'.1, h.symm⟩)
    | some il => obtain ⟨i, l⟩ := il; simp [hl] at h; exact .inl ⟨i, l, hp'.2, hp'.1, rfl, h⟩
  · simp only [Bool.not_eq_true] at hp
    by_cases hd : s.drainOver = true
    · simp [State.next, hp, hd] at h
      exact .inr (.inr (.inl ⟨hp, hd, h.symm⟩))
    · simp only [Bool.not_eq_true] at hd
      rcases hi : s.input with _ | ⟨b | _ | _ | r, rest⟩
      · simp [State.next, hp, hd, hi] at h
        exact .inr (.inr (.inr (.inl h.symm)))
      · by_cases hm : s.mode = .run
        · have hn : s.next = .run (s.rxInstr b) { s with input := rest } := by
            simp [State.next, hp, hd, hi, State.onInput, hm]; rfl
          rw [hn] at h
          exact .inr (.inr (.inr (.inr (.inl ⟨b, rest, hp, rfl, hm, h⟩))))
        · simp [State.next, hp, hd, hi, State.onInput, hm] at h
          exact .inr (.inr (.inr (.inr (.inr (.inl ⟨b, rest, rfl, hm, h.symm⟩)))))
      all_goals simp [State.next, hp, hd, hi, State.onInput] at h
      · exact .inr (.inr (.inr (.inr (.inr (.inr (.inl ⟨rest, rfl, h.symm⟩))))))
      · exact .inr (.inr (.inr (.inr (.inr (.inr (.inr (.inl ⟨rest, rfl, h⟩)))))))
      · exact .inr (.inr (.inr (.inr (.inr (.inr (.inr (.inr ⟨r, rest, rfl, h⟩)))))))

/-- A run goes on from the state its first step answers. -/
theorem run_succ {s t : State} (h : step s = .next t) (n : Nat) :
    Sys2Proof.core.run (n + 1) s = Sys2Proof.core.run n t := by
  have hs : Sys2Proof.core.step s = .next t := h
  simp only [Host.Core.run, hs]

end Sys2Proof.Machine
end

