-- ==== Sys2Proof/Tests/Slice0.lean ====
section
/-! SUPPORT. The model's own tests. Expected bytes, events and field values are those of spec/95_test_vectors.md
(the vector is named at each test), of the worked examples in the rules, or worked out by hand from a rule; none is
the model's own answer. Then, for every statement with hypotheses, concrete states and operands that meet them. -/

namespace Sys2Proof.Tests

open Sys2Proof Sys2Proof.Machine

/-! ## Helpers -/

/-- The next state, if there is one. -/
def nextOf (o : Host.Outcome State Fault Refusal) : Option State :=
  match o with
  | .next s => some s
  | _ => none

/-- REF with the framer waiting for the last byte of `bs`. -/
def awaiting (bs : List Byte) : State := { State.reset.withFrame bs with input := [] }

/-- `S_F` of the vectors: FTSW up and stale, `pend_led[FTSW] = 05`; EXP up as well. -/
def sF : State :=
  { State.reset with
    ftsw := ⟨⟨true, 0, 0x00, true⟩, none, true, Vector.replicate 4 false⟩
    exp := ⟨⟨true, 0, 0x00, true⟩, false, 0, 0, false, 0⟩
    pendLedFtsw := 0x05 }

/-- `S_T` of the vectors at index `k`: the LED frame `90 01 10 05 14` in flight, its byte `k` sent. -/
def sT (k : Fin 9) : State :=
  { sF with txp := .echo, tb := #v[0x90, 0x01, 0x10, 0x05, 0x14, 0, 0, 0, 0], tlen := 5, tidx := k, tval := .led 0x05 }

/-- `S_T` after all its echoes: the response is awaited. -/
def sW : State := { sT 4 with txp := .ackw }

/-- A number in flight to FTSW, the response awaited (V-T12). -/
def sN : State := { sW with tval := .num (some 7), tlen := 9, tidx := 8 }

/-- A reply's echo awaited. -/
def sR : State := { State.reset with txp := .rpl }

/-- The same state under the hardware scheduling (R304). -/
def hw (s : State) : State := { s with cfg := { s.cfg with sched := .hardware } }

/-- An event queue of `n` events. -/
def queued (n : Nat) : State := { State.reset with eq := List.replicate n .doubleButton }

/-! ## The reference instantiation meets the constraints -/

theorem ref_valid : Config.ref.Valid where
  cmdTop := by intro k; cases k <;> decide
  cmdInj := by intro j k; cases j <;> cases k <;> decide
  errorNeAck := by decide
  idTop := by intro d; cases d <;> decide
  idInj := by decide
  lenLow := by intro k; cases k <;> decide
  lenInj := by intro j k; cases j <;> cases k <;> decide
  thresholdPos := by decide
  tEchoPos := by decide
  tAckPos := by decide
  queueCapPos := by decide
  resetLowPos := by decide
  btnKeys := by decide
  btnEdges := by decide
  btn7D := by decide
  btn7F := by decide
  btn00 := by decide
  offBtnIn := by decide
  offPosHiIn := by decide
  offPosLoIn := by decide
  offDbtnAIn := by decide
  offDbtnBIn := by decide

theorem ref_segDistinct : Config.ref.SegDistinct where
  digits := by decide
  blank := by decide

/-! ## WellFormed refuses ill-formed terms, check by check -/

theorem test_wf_frame_only_in_frame : wellFormed Config.ref .idle (.init 0x01 [0x00]) = false := by decide
theorem test_wf_identifier_top : wellFormed Config.ref .frame (.btn 0x81 [0x7D, 0x7D]) = false := by decide
theorem test_wf_payload_top : wellFormed Config.ref .frame (.pos 0x02 [0x02, 0x90, 0x00]) = false := by decide
theorem test_wf_frame_length : wellFormed Config.ref .frame (.dbtn 0x01 [0x7D, 0x7D, 0x7F]) = false := by decide
theorem test_wf_badsum_good_sum : wellFormed Config.ref .frame (.badsum .btn [0x01, 0x7D, 0x7D, 0x01]) = false := by
  decide
theorem test_wf_badsum_length : wellFormed Config.ref .frame (.badsum .btn [0x01, 0x7D, 0x00]) = false := by decide
theorem test_wf_badsum_top : wellFormed Config.ref .frame (.badsum .btn [0x01, 0xFD, 0x7D, 0x00]) = false := by decide
theorem test_wf_unknownCmd_is_known : wellFormed Config.ref .idle (.unknownCmd 0x82) = false := by decide
theorem test_wf_unknownCmd_data : wellFormed Config.ref .more (.unknownCmd 0x02) = false := by decide
theorem test_wf_data_top : wellFormed Config.ref .more (.data 0x80) = false := by decide
theorem test_wf_data_idle : wellFormed Config.ref .idle (.data 0x00) = false := by decide
theorem test_wf_stray_top : wellFormed Config.ref .idle (.stray 0x80) = false := by decide
theorem test_wf_stray_accumulating : wellFormed Config.ref .more (.stray 0x00) = false := by decide
theorem test_wf_reply_context : wellFormed Config.ref .ackw .replyAck = false := by decide
theorem test_wf_rplEcho_context : wellFormed Config.ref .idle (.rplEcho 0x81) = false := by decide
theorem test_wf_led_context : wellFormed Config.ref .frame (.led .ftsw 0x05) = false := by decide
theorem test_wf_echoOk_other_byte : wellFormed Config.ref (.echo 0x01 false) (.echoOk 0x02) = false := by decide
theorem test_wf_echoOk_last : wellFormed Config.ref (.echo 0x01 true) (.echoOk 0x01) = false := by decide
theorem test_wf_echoMismatch_same_byte : wellFormed Config.ref (.echo 0x01 false) (.echoMismatch 0x01) = false := by
  decide
theorem test_wf_respOther_ack : wellFormed Config.ref .ackw (.respOther 0x81) = false := by decide
theorem test_wf_respOther_error : wellFormed Config.ref .ackw (.respOther 0x8E) = false := by decide
theorem test_wf_tick_has_no_bytes : wellFormed Config.ref .idle .tick = false := by decide

/-! ## Decoding of words written out from the encodings (R93 to R101), at least one for every constructor -/

/-- V-D1: `81 01 00 01`. -/
theorem test_dec_init : decode Config.ref .frame [0x81, 0x01, 0x00, 0x01] = .ok (.init 0x01 [0x00]) := by decide
/-- S-2: `82 01 7D 7D 01`. -/
theorem test_dec_btn : decode Config.ref .frame [0x82, 0x01, 0x7D, 0x7D, 0x01] = .ok (.btn 0x01 [0x7D, 0x7D]) := by
  decide
/-- V-C1: `83 02 02 10 55 45`. -/
theorem test_dec_pos :
    decode Config.ref .frame [0x83, 0x02, 0x02, 0x10, 0x55, 0x45] = .ok (.pos 0x02 [0x02, 0x10, 0x55]) := by decide
/-- V-D7: `84 01 7D 7D 7F 7F 01`. -/
theorem test_dec_dbtn : decode Config.ref .frame [0x84, 0x01, 0x7D, 0x7D, 0x7F, 0x7F, 0x01] =
    .ok (.dbtn 0x01 [0x7D, 0x7D, 0x7F, 0x7F]) := by decide
/-- V-C4: `81 01 00 00`. -/
theorem test_dec_badsum :
    decode Config.ref .frame [0x81, 0x01, 0x00, 0x00] = .ok (.badsum .init [0x01, 0x00, 0x00]) := by decide
/-- V-F2: each command byte alone starts its frame. -/
theorem test_dec_cmdStart : [(0x81 : Byte), 0x82, 0x83, 0x84].map (fun b => decode Config.ref .idle [b]) =
    [.ok (.cmdStart .init), .ok (.cmdStart .btn), .ok (.cmdStart .pos), .ok (.cmdStart .dbtn)] := by decide
/-- V-F3(d). -/
theorem test_dec_unknownCmd : [(0x8E : Byte), 0x80, 0x85, 0x90, 0xFF].map (fun b => decode Config.ref .more [b]) =
    [.ok (.unknownCmd 0x8E), .ok (.unknownCmd 0x80), .ok (.unknownCmd 0x85), .ok (.unknownCmd 0x90),
     .ok (.unknownCmd 0xFF)] := by decide
/-- V-F4. -/
theorem test_dec_stray : [(0x7D : Byte), 0x00, 0x7F].map (fun b => decode Config.ref .idle [b]) =
    [.ok (.stray 0x7D), .ok (.stray 0x00), .ok (.stray 0x7F)] := by decide
/-- V-F1, second byte. -/
theorem test_dec_data : decode Config.ref .more [0x01] = .ok (.data 0x01) := by decide
/-- R98 with REF's `ACK = 81`, `ERROR = 8E`. -/
theorem test_dec_reply : [(0x81 : Byte), 0x8E, 0x00].map (fun b => decode Config.ref .reply [b]) =
    [.ok .replyAck, .ok .replyErr, .error .notAReply] := by decide
/-- R153: whatever its value. -/
theorem test_dec_rplEcho : decode Config.ref .rpl [0x8E] = .ok (.rplEcho 0x8E) := by decide
/-- V-E1: masks 85 and 05 for FTSW, 01 for EXP. -/
theorem test_dec_led : [[(0x90 : Byte), 0x01, 0x11, 0x05, 0x15], [0x90, 0x01, 0x10, 0x05, 0x14],
      [0x90, 0x02, 0x10, 0x01, 0x13]].map (decode Config.ref .pass) =
    [.ok (.led .ftsw 0x85), .ok (.led .ftsw 0x05), .ok (.led .exp 0x01)] := by decide
/-- V-E2: numbers 989, 40 and `BLANK`. -/
theorem test_dec_dig : [[(0x91 : Byte), 0x01, 0x21, 0x6F, 0x23, 0x7F, 0x25, 0x6F, 0x59],
      [0x91, 0x01, 0x20, 0x00, 0x22, 0x66, 0x24, 0x3F, 0x7E],
      [0x91, 0x01, 0x20, 0x00, 0x22, 0x00, 0x24, 0x00, 0x27]].map (decode Config.ref .pass) =
    [.ok (.dig (some 989)), .ok (.dig (some 40)), .ok (.dig none)] := by decide
/-- R182, R185, R183. -/
theorem test_dec_echo : [decode Config.ref (.echo 0x01 false) [0x01], decode Config.ref (.echo 0x14 true) [0x14],
      decode Config.ref (.echo 0x01 false) [0x03]] =
    [.ok (.echoOk 0x01), .ok (.echoLast 0x14), .ok (.echoMismatch 0x03)] := by decide
/-- R186, R187, R188: V-F9, `81` in `TX_ACKW` is a response. -/
theorem test_dec_response : [(0x81 : Byte), 0x8E, 0x00].map (fun b => decode Config.ref .ackw [b]) =
    [.ok .respAck, .ok .respError, .ok (.respOther 0x00)] := by decide
/-- Ticks and requests have no wire bytes (R113). -/
theorem test_dec_event : decode Config.ref .event [] = .error .noEncoding := by decide
/-- The rejections: a wrong length, bit 7 inside a frame, a wrong outbound checksum, identifier, sub-message and
pattern. -/
theorem test_dec_rejects :
    decode Config.ref .frame [0x82, 0x01, 0x7D, 0x01] = .error .wrongLength ∧
    decode Config.ref .frame [0x82, 0x01, 0xFD, 0x7D, 0x01] = .error .topBitInside ∧
    decode Config.ref .frame [0xF0, 0x01, 0x00, 0x01] = .error .unknownCommand ∧
    decode Config.ref .pass [0x92, 0x01, 0x10, 0x05, 0x14] = .error .notOutbound ∧
    decode Config.ref .pass [0x90, 0x01, 0x10, 0x05, 0x15] = .error .badChecksum ∧
    decode Config.ref .pass [0x90, 0x03, 0x10, 0x05, 0x16] = .error .badIdentifier ∧
    decode Config.ref .pass [0x90, 0x01, 0x12, 0x05, 0x16] = .error .badSubMessage ∧
    decode Config.ref .pass [0x91, 0x01, 0x20, 0x01, 0x22, 0x00, 0x24, 0x00, 0x26] = .error .badPattern := by decide
/-- Table words, first wire byte most significant. -/
theorem test_table_words :
    decodeTableWord 32 0x81010001 = some (.init 0x01 [0x00]) ∧
    decodeTableWord 40 0x9001110515 = some (.led .ftsw 0x85) ∧
    decodeTableWord 8 0x80 = some (.unknownCmd 0x80) ∧ decodeTableWord 8 0x00 = some (.stray 0x00) := by decide

/-! ## One operation at a time -/

/-- V-D1 (here through the step that takes the last byte): `tx 81`, `ev DeviceOnline(FTSW)`. -/
theorem test_init : (nextOf (step { awaiting [0x81, 0x01, 0x00, 0x01] with input := [.rx 0x01] })).map
      (fun s => (s.ftsw.base.present, s.ftsw.numStale, s.exp.base.present, s.trace)) =
    some (true, true, false, [.rx 0x01, .tx 0x81, .ev (.deviceOnline .ftsw)]) := by decide
/-- V-D4: an identifier of neither pedal is acknowledged and ignored. -/
theorem test_init_unknown_identifier : (nextOf (exec (.init 0x03 [0x00]) (awaiting [0x81, 0x03, 0x00, 0x03]))).map
      (fun s => (s.ftsw.base.present, s.exp.base.present, s.trace)) =
    some (false, false, [.rx 0x03, .tx 0x81]) := by decide
/-- S-2 and V-C8: the button bit of an absent pedal is written. -/
theorem test_btn : (nextOf (exec (.btn 0x02 [0x7D, 0x7D]) (awaiting [0x82, 0x02, 0x7D, 0x7D, 0x02]))).map
      (fun s => (s.ftsw.btn, s.plen, s.explen, s.trace)) =
    some (#v[false, false, true, false], 0, 0, [.rx 0x02, .tx 0x81, .ev (.edge (.ftswDown 2))]) := by decide
/-- V-B3: the lower index is the upper half, so `7F 7B` is unmapped. -/
theorem test_btn_unmapped : (nextOf (exec (.btn 0x01 [0x7F, 0x7B]) (awaiting [0x82, 0x01, 0x7F, 0x7B, 0x05]))).map
      (fun s => (s.eq, s.trace)) = some ([], [.rx 0x05, .tx 0x81]) := by decide
/-- S-7: a reading of 200 after 272. -/
theorem test_pos_lowers_minimum :
    (nextOf (exec (.pos 0x02 [0x01, 0x48, 0x00])
      { awaiting [0x83, 0x02, 0x01, 0x48, 0x00, 0x4B] with exp := ⟨DevBase.zero, false, 272, 272, true, 0⟩ })).map
      (fun s => (s.exp.posMin, s.exp.posMax, s.exp.pos, s.eq)) = some (200, 272, 0, [.position 0]) := by decide
/-- V-X1, third row: 300 above a minimum of 200 reports 100. -/
theorem test_pos_above_minimum :
    (nextOf (exec (.pos 0x02 [0x02, 0x2C, 0x00])
      { awaiting [0x83, 0x02, 0x02, 0x2C, 0x00, 0x2C] with exp := ⟨DevBase.zero, false, 200, 272, true, 0⟩ })).map
      (fun s => (s.exp.posMin, s.exp.posMax, s.exp.pos, s.eq)) = some (200, 300, 100, [.position 100]) := by decide
/-- V-D7. -/
theorem test_dbtn :
    (nextOf (exec (.dbtn 0x01 [0x7D, 0x7D, 0x7F, 0x7F]) (awaiting [0x84, 0x01, 0x7D, 0x7D, 0x7F, 0x7F, 0x01]))).map
      (fun s => (s.ftsw.btn, s.eq)) =
    some (#v[false, false, true, false], [.doubleButton, .edge (.ftswDown 2), .edge (.ftswUp 0)]) := by decide
/-- V-Q3: one free slot keeps the marker, both bits are written. -/
theorem test_dbtn_overflow :
    (nextOf (exec (.dbtn 0x01 [0x7D, 0x7D, 0x7E, 0x7E])
      { awaiting [0x84, 0x01, 0x7D, 0x7D, 0x7E, 0x7E, 0x01] with eq := List.replicate 9 (.position 1) })).map
      (fun s => (s.ftsw.btn, s.eq.length, s.trace.drop 3)) =
    some (#v[true, false, true, false], 10,
      [.drop (.edge (.ftswDown 2)), .err (.queueOverflow (.edge (.ftswDown 2))),
       .drop (.edge (.ftswDown 0)), .err (.queueOverflow (.edge (.ftswDown 0)))]) := by decide
/-- V-C2. -/
theorem test_badsum :
    (nextOf (exec (.badsum .btn [0x01, 0x7D, 0x7D, 0x00]) (awaiting [0x82, 0x01, 0x7D, 0x7D, 0x00]))).map
      (fun s => (s.ftsw.btn, s.eq, s.txp, s.trace)) =
    some (Vector.replicate 4 false, [], .rpl, [.rx 0x00, .tx 0x8E, .err .checksumError]) := by decide
/-- V-F5: `81` in the middle of a frame restarts it silently. -/
theorem test_cmdStart : (nextOf (step { awaiting [0x82, 0x01, 0x7D, 0x7D, 0x01] with input := [.rx 0x81] })).map
      (fun s => (s.fb[0], s.plen, s.explen, s.trace)) = some (0x81, 1, 4, [.rx 0x81]) := by decide
/-- V-F3(b). -/
theorem test_unknownCmd : (nextOf (step { awaiting [0x82, 0x01, 0x7D, 0x7D, 0x01] with input := [.rx 0xF0] })).map
      (fun s => (s.fb[0], s.plen, s.explen, s.trace)) =
    some (0x82, 0, 0, [.rx 0xF0, .err (.unknownCommand 0xF0)]) := by decide
/-- V-F1, second byte. -/
theorem test_data :
    (nextOf (exec (.data 0x01) { State.reset with fb := #v[0x82, 0, 0, 0, 0, 0, 0], plen := 1, explen := 5 })).map
      (fun s => (s.fb, s.plen, s.explen)) = some (#v[0x82, 0x01, 0, 0, 0, 0, 0], 2, 5) := by decide
/-- V-F4. -/
theorem test_stray : (nextOf (exec (.stray 0x7D) State.reset)).map (fun s => (s.plen, s.explen, s.trace)) =
    some (0, 0, [.rx 0x7D, .err (.strayByte 0x7D)]) := by decide
/-- R151 and R152 on their own. -/
theorem test_reply : (nextOf (exec .replyAck State.reset)).map (fun s => (s.txp, s.trace)) = some (.rpl, [.tx 0x81]) ∧
    (nextOf (exec .replyErr State.reset)).map (fun s => (s.txp, s.trace)) =
      some (.rpl, [.tx 0x8E, .err .checksumError]) := by decide
/-- V-F8: with no echo on the bus the next byte, a command, is eaten. -/
theorem test_rplEcho : (nextOf (step { sR with input := [.rx 0x83] })).map (fun s => (s.txp, s.plen, s.explen)) =
    some (.idle, 0, 0) := by decide
/-- `S_T` (section 0 of the vectors). -/
theorem test_led : (nextOf (exec (.led .ftsw 0x05) sF)).map (fun s => (s.tb.toList.take 5, s.tlen, s.tidx, s.txp, s.trace)) =
    some ([0x90, 0x01, 0x10, 0x05, 0x14], 5, 0, .echo, [.tx 0x90]) := by decide
/-- R194: an absent pedal is sent nothing. -/
theorem test_led_absent : nextOf (exec (.led .exp 0x05) State.reset) = some State.reset := by decide
/-- V-T12. -/
theorem test_dig : (nextOf (exec (.dig (some 7)) sF)).map (fun s => (s.tb.toList, s.tlen, s.tval, s.trace)) =
    some ([0x91, 0x01, 0x20, 0x00, 0x22, 0x00, 0x24, 0x07, 0x20], 9, .num (some 7), [.tx 0x91]) := by decide
/-- V-E2: 105, and 7 without suppression. -/
theorem test_dig_patterns : encode Config.ref (.dig (some 105)) =
      [0x91, 0x01, 0x20, 0x06, 0x22, 0x3F, 0x24, 0x6D, 0x73] ∧
    encode { Config.ref with lzSuppress := false } (.dig (some 7)) =
      [0x91, 0x01, 0x20, 0x3F, 0x22, 0x3F, 0x24, 0x07, 0x20] := by decide
/-- V-T1, first exchange. -/
theorem test_echoOk : (nextOf (step { sT 0 with input := [.rx 0x90] })).map (fun s => (s.tidx, s.txp, s.trace)) =
    some (1, .echo, [.rx 0x90, .tx 0x01]) := by decide
/-- V-T1, last echo. -/
theorem test_echoLast : (nextOf (step { sT 4 with input := [.rx 0x14] })).map (fun s => (s.txp, s.tmr, s.trace)) =
    some (.ackw, 0, [.rx 0x14]) := by decide
/-- V-T3. -/
theorem test_echoMismatch : (nextOf (step { sT 1 with input := [.rx 0x03] })).map
      (fun s => (s.txp, s.ftsw.base.errCnt, s.ftsw.base.ledStale, s.trace)) =
    some (.idle, 1, true, [.rx 0x03, .err (.txFailure .echoMismatch .ftsw)]) := by decide
/-- V-T1, the response. -/
theorem test_respAck : (nextOf (step { sW with input := [.rx 0x81] })).map (fun s => (s.txp, s.ftsw.base, s.ftsw.numStale)) =
    some (.idle, ⟨true, 0, 0x05, false⟩, true) := by decide
/-- V-T12, the response: the number cache, not the LED cache. -/
theorem test_respAck_number : (nextOf (exec .respAck sN)).map
      (fun s => (s.ftsw.ackNum, s.ftsw.numStale, s.ftsw.base.ledStale)) = some (some 7, false, true) := by decide
/-- R187. -/
theorem test_respError : (nextOf (step { sW with input := [.rx 0x8E] })).map (fun s => (s.txp, s.ftsw.base.errCnt)) =
    some (.idle, 1) := by decide
/-- V-P1: the fifth failure evicts. -/
theorem test_respOther_evicts :
    (nextOf (step { sW with ftsw := { sW.ftsw with base := { sW.ftsw.base with errCnt := 4 } }, input := [.rx 0x00] })).map
      (fun s => (s.ftsw, s.eq, s.pendLedFtsw)) = some (FtswRec.zero, [.deviceOffline .ftsw], 0x05) := by decide
/-- V-T4. -/
theorem test_tick_echo_timeout : (nextOf (exec .tick (sT 0))).map (fun s => (s.txp, s.ftsw.base.errCnt, s.trace)) =
    some (.idle, 1, [.tick, .err (.txFailure .echoTimeout .ftsw)]) := by decide
/-- V-T2 and V-T5: the first tick of a response wait only counts, the second ends it. -/
theorem test_tick_ack : (nextOf (exec .tick sW)).map (fun s => (s.txp, s.tmr)) = some (.ackw, 1) ∧
    (nextOf (exec .tick { sW with tmr := 1 })).map (fun s => (s.txp, s.ftsw.base.errCnt)) = some (.idle, 1) := by decide
/-- V-E3. -/
theorem test_setLed : (nextOf (exec (.setLed .exp 7) State.reset)).map (fun s => (s.pendLedFtsw, s.pendLedExp)) =
    some (0x00, 0x80) := by decide
/-- V-E3. -/
theorem test_clearLed : (nextOf (exec (.clearLed .ftsw 0) sF)).map (fun s => s.pendLedFtsw) = some 0x04 := by decide
/-- S-10 and V-E3. -/
theorem test_setDisplayNumber : (nextOf (exec (.setDisplayNumber 1000) State.reset)).map (·.pendNum) = some (some 0) ∧
    (nextOf (exec (.setDisplayNumber 1234) State.reset)).map (·.pendNum) = some (some 234) := by decide
/-- V-E3. -/
theorem test_clearDisplayNumber :
    (nextOf (exec .clearDisplayNumber { State.reset with pendNum := some 42 })).map (·.pendNum) = some none := by decide
/-- S-13, V-R1. -/
theorem test_poll_idle : (nextOf (exec .poll State.reset)).map (fun s => (s.call, s.trace)) =
    some (.none, [.call .poll, .ret none]) := by decide
/-- V-R3, second poll: the gate is open and the pass begins. -/
theorem test_poll_pass : (nextOf (exec .poll sF)).map (fun s => (s.call, s.pass, s.trace)) =
    some (.passing, some .ftswLed, [.call .poll]) := by decide
/-- R304: the caller's poll reduces to `Pop()`, here while a reply's echo is awaited. -/
theorem test_poll_hardware : (nextOf (exec .poll (hw { sR with eq := [.doubleButton] }))).map
      (fun s => (s.call, s.txp, s.eq, s.trace)) =
    some (.none, .rpl, [], [.call .poll, .ret (some .doubleButton)]) := by decide
/-- R304: the pass starts by itself as soon as the gate is open, and no poll has to end it. -/
theorem test_noByte_hardware : (nextOf (step (hw { sF with input := [.noByte] }))).map
      (fun s => (s.call, s.pass, s.input, s.trace)) = some (.none, some .ftswLed, [], []) := by decide
/-- R300: under the software scheduling only a poll tests the gate. -/
theorem test_noByte_software : (nextOf (step { sF with input := [.noByte] })).map (fun s => (s.pass, s.input)) =
    some (none, []) := by decide
/-- V-P6: five failures of five causes evict on the fifth and push one event. -/
theorem test_mixed_causes :
    (sF.failures [.echoMismatch, .echoTimeout, .ackTimeout, .errorReply]).ftsw.base.errCnt = 4 ∧
    (sF.failures [.echoMismatch, .echoTimeout, .ackTimeout, .errorReply, .badReply]).ftsw = FtswRec.zero ∧
    (sF.failures [.echoMismatch, .echoTimeout, .ackTimeout, .errorReply, .badReply]).eq = [.deviceOffline .ftsw] := by
  decide
/-- V-Z1. -/
theorem test_reset :
    (nextOf (exec .reset { sN with plen := 2, explen := 5, eq := [.edge (.ftswDown 1), .position 5], pendNum := some 42 })).map
      (fun s => ((s.ftsw, s.exp), (s.eq, s.explen, s.txp), (s.pendLedFtsw, s.pendNum))) =
    some ((FtswRec.zero, ExpRec.zero), ([], 0, .idle), (0x05, some 42)) := by decide

/-! ## Every hypothesis can be met: one witness for every statement that has hypotheses -/

theorem wit_DecodeOfEncodeIsTheOperation :
    wellFormed Config.ref .frame (.dbtn 0x7F [0x7F, 0x00, 0x7F, 0x00]) = true ∧
    wellFormed Config.ref .pass (.dig (some 999)) = true ∧ wellFormed Config.ref .pass (.led .exp 0xFF) = true ∧
    wellFormed Config.ref .more (.unknownCmd 0xFF) = true ∧ wellFormed Config.ref (.echo 0x14 true) (.echoLast 0x14) = true ∧
    wellFormed Config.ref .ackw (.respOther 0x00) = true := by decide
theorem wit_DecodedBytesAreTheEncoding :
    Config.ref.Valid ∧ decode Config.ref .frame [0x81, 0x01, 0x00, 0x01] = .ok (.init 0x01 [0x00]) :=
  ⟨ref_valid, by decide⟩
theorem wit_ByteFallsInOneClass : Config.ref.Valid ∧ (∃ k, (0x84 : Byte) = Config.ref.cmd k) ∧
    (top 0x80 = true ∧ ∀ k, (0x80 : Byte) ≠ Config.ref.cmd k) ∧ top 0x7F = false :=
  ⟨ref_valid, ⟨.dbtn, rfl⟩, ⟨by decide, by intro k; cases k <;> decide⟩, by decide⟩
theorem wit_ChecksumSeesOneFlipFromIndexOne :
    1 ≤ 1 ∧ 4 < [(0x82 : Byte), 0x01, 0x7D, 0x7D, 0x01].length ∧ 7 < 8 ∧
    cks ([(0x82 : Byte), 0x01, 0x7D, 0x7D, 0x01].modify 4 (· ^^^ (1#8 <<< 6))) = 0x40 := by decide
theorem wit_CommandByteStartsFrame : State.reset.mode = .run ∧ State.reset.txp = .idle ∧
    (awaiting [0x82, 0x01, 0x7D, 0x7D, 0x01]).txp = .idle := by decide
theorem wit_UnknownCommandIdlesFramer : State.reset.mode = .run ∧ State.reset.txp = .idle ∧ top 0x80 = true ∧
    State.reset.cfg.cmdKind 0x80 = none := by decide
/-- The boundary: the last byte but one of the longest frame. -/
theorem wit_DataByteIsAppended : ∃ s : State, s.mode = .run ∧ s.txp = .idle ∧ top 0x7F = false ∧
    s.plen.val + 1 < s.explen.val ∧ s.plen.val + 2 = 7 :=
  ⟨{ State.reset with plen := 5, explen := 7 }, by decide⟩
theorem wit_CompletingByteRunsTheFrame : ∃ s : State, s.cfg.Valid ∧ s.mode = .run ∧ s.txp = .idle ∧ top 0x01 = false ∧
    s.plen.val + 1 = s.explen.val ∧
    decode s.cfg .frame (s.partialFrame ++ [0x01]) = .ok (.dbtn 0x01 [0x7D, 0x7D, 0x7F, 0x7F]) :=
  ⟨awaiting [0x84, 0x01, 0x7D, 0x7D, 0x7F, 0x7F, 0x01], ref_valid, by decide⟩
theorem wit_StrayByteIsDiscarded : State.reset.mode = .run ∧ State.reset.txp = .idle ∧ top 0x7F = false ∧
    ¬ State.reset.plen.val < State.reset.explen.val := by decide
theorem wit_InitBringsPedalOnline :
    (wellFormed Config.ref .frame (.init 0x01 [0x55]) = true ∧
      (awaiting (encode Config.ref (.init 0x01 [0x55]))).AwaitsLastOf (encode Config.ref (.init 0x01 [0x55])) ∧
      Config.ref.devOf 0x01 = some .ftsw) ∧
    (wellFormed Config.ref .frame (.init 0x02 [0x00]) = true ∧
      (awaiting (encode Config.ref (.init 0x02 [0x00]))).AwaitsLastOf (encode Config.ref (.init 0x02 [0x00])) ∧
      Config.ref.devOf 0x02 = some .exp) :=
  ⟨⟨by decide, ⟨rfl, rfl, rfl, rfl, by decide⟩, rfl⟩, by decide, ⟨rfl, rfl, rfl, rfl, by decide⟩, rfl⟩
theorem wit_InitOfUnknownIdentifierIsOnlyAcknowledged :
    wellFormed Config.ref .frame (.init 0x03 [0x00]) = true ∧
    (awaiting (encode Config.ref (.init 0x03 [0x00]))).AwaitsLastOf (encode Config.ref (.init 0x03 [0x00])) ∧
    Config.ref.devOf 0x03 = none :=
  ⟨by decide, ⟨rfl, rfl, rfl, rfl, by decide⟩, rfl⟩
/-- Mapped and unmapped. -/
theorem wit_BtnFrameDecodesItsCombination : Config.ref.Valid ∧
    (wellFormed Config.ref .frame (.btn 0x01 [0x7D, 0x7F]) = true ∧
      (awaiting (encode Config.ref (.btn 0x01 [0x7D, 0x7F]))).AwaitsLastOf (encode Config.ref (.btn 0x01 [0x7D, 0x7F])) ∧
      Config.ref.button (combo 0x7D 0x7F) = some (.ftswUp 2)) ∧
    (wellFormed Config.ref .frame (.btn 0x01 [0x00, 0x00]) = true ∧
      (awaiting (encode Config.ref (.btn 0x01 [0x00, 0x00]))).AwaitsLastOf (encode Config.ref (.btn 0x01 [0x00, 0x00])) ∧
      Config.ref.button (combo 0x00 0x00) = none) :=
  ⟨ref_valid, ⟨by decide, ⟨rfl, rfl, rfl, rfl, by decide⟩, by decide⟩, by decide, ⟨rfl, rfl, rfl, rfl, by decide⟩, by decide⟩
/-- Each of the four clauses: both sub-fields mapped, one, the other, none. -/
theorem wit_DbtnFrameDecodesBothCombinations : Config.ref.Valid ∧
    (∀ pl ∈ [[(0x7D : Byte), 0x7D, 0x7F, 0x7F], [0x7D, 0x7D, 0x00, 0x00], [0x00, 0x00, 0x7E, 0x7E], [0x00, 0x00, 0x00, 0x00]],
      wellFormed Config.ref .frame (.dbtn 0x01 pl) = true ∧
      (awaiting (encode Config.ref (.dbtn 0x01 pl))).completes (encode Config.ref (.dbtn 0x01 pl)) = true) ∧
    (Config.ref.button (combo 0x7D 0x7D)).isSome = true ∧ (Config.ref.button (combo 0x7F 0x7F)).isSome = true ∧
    (Config.ref.button (combo 0x7E 0x7E)).isSome = true ∧ Config.ref.button (combo 0x00 0x00) = none ∧
    (awaiting (encode Config.ref (.dbtn 0x01 [0x7D, 0x7D, 0x7F, 0x7F]))).AwaitsLastOf
      (encode Config.ref (.dbtn 0x01 [0x7D, 0x7D, 0x7F, 0x7F])) :=
  ⟨ref_valid, by decide, by decide, by decide, by decide, by decide, ⟨rfl, rfl, rfl, rfl, by decide⟩⟩
/-- The largest reading. -/
theorem wit_PosFrameReportsAboveMinimum : Config.ref.Valid ∧
    wellFormed Config.ref .frame (.pos 0x02 [0x7F, 0x7F, 0x00]) = true ∧
    (awaiting (encode Config.ref (.pos 0x02 [0x7F, 0x7F, 0x00]))).AwaitsLastOf (encode Config.ref (.pos 0x02 [0x7F, 0x7F, 0x00])) ∧
    pos14 0x7F 0x7F = 16383 :=
  ⟨ref_valid, by decide, ⟨rfl, rfl, rfl, rfl, by decide⟩, by decide⟩
theorem wit_BadChecksumIsAnsweredWithError :
    wellFormed Config.ref .frame (.badsum .dbtn [0x01, 0x7D, 0x7D, 0x7F, 0x7F, 0x00]) = true ∧
    (awaiting (encode Config.ref (.badsum .dbtn [0x01, 0x7D, 0x7D, 0x7F, 0x7F, 0x00]))).AwaitsLastOf
      (encode Config.ref (.badsum .dbtn [0x01, 0x7D, 0x7D, 0x7F, 0x7F, 0x00])) :=
  ⟨by decide, ⟨rfl, rfl, rfl, rfl, by decide⟩⟩
theorem wit_ReplyStartsReplyPhase : State.reset.mode = .run ∧ State.reset.txp = .idle ∧ State.reset.explen = 0 := by decide
theorem wit_ReplyEchoIsDiscarded : sR.mode = .run ∧ sR.txp = .rpl := by decide
/-- Nine queued events leave one slot, ten none. -/
theorem wit_PushAppendsOrDropsNewest : (queued 9).eq.length < (queued 9).cfg.queueCap ∧
    (queued 10).cfg.queueCap ≤ (queued 10).eq.length := by decide
theorem wit_QueueKeepsTheFirstEvents : (queued 0).eq.length ≤ (queued 0).cfg.queueCap ∧
    (queued 10).eq.length ≤ (queued 10).cfg.queueCap := by decide
theorem wit_LedFrameIsStarted : sF.mode = .run ∧ sF.txp = .idle ∧ sF.explen = 0 ∧ (sF.dev .ftsw).present = true ∧
    (sF.dev .exp).present = true ∧ (0x7F : Byte).toNat < 128 ∧ ¬ (0x80 : Byte).toNat < 128 := by decide
theorem wit_DigitFrameIsStarted : sF.mode = .run ∧ sF.txp = .idle ∧ sF.explen = 0 ∧ sF.ftsw.base.present = true := by decide
/-- One state for each of the four conditions that can fail. -/
theorem wit_RefusedStartChangesNothing : { sF with mode := .resetting }.mode ≠ .run ∧ (sT 0).txp ≠ .idle ∧
    (awaiting [0x81, 0x01, 0x00, 0x01]).explen ≠ 0 ∧ (State.reset.dev .exp).present = false ∧
    State.reset.ftsw.base.present = false := by decide
/-- The boundary: the last byte but one of the longest frame. -/
theorem wit_MatchedEchoSendsNextByte : ∃ s : State, s.tidx.val + 1 < 9 ∧ s.mode = .run ∧ s.txp = .echo ∧
    s.tidx.val + 1 < s.tlen.val ∧ s.tidx.val + 2 = 9 :=
  ⟨{ sT 7 with tlen := 9 }, by decide⟩
theorem wit_LastEchoAwaitsResponse : (sT 4).mode = .run ∧ (sT 4).txp = .echo ∧ (sT 4).tidx.val + 1 = (sT 4).tlen.val := by
  decide
/-- The boundary: the counter at 3 of 5. -/
theorem wit_FailureBelowThresholdIsCounted : ∃ s t : State,
    (s.mode = .run ∧ (s.dev s.tdev).errCnt + 1 < s.cfg.errThreshold ∧ s.txp = .echo ∧ (0x03 : Byte) ≠ s.tb[s.tidx]) ∧
    (t.mode = .run ∧ (t.dev t.tdev).errCnt + 1 < t.cfg.errThreshold ∧ t.txp = .ackw ∧ (0x00 : Byte) ≠ t.cfg.ack ∧
      (0x00 : Byte) ≠ t.cfg.error) ∧ (s.dev s.tdev).errCnt + 2 = s.cfg.errThreshold :=
  ⟨sT 1 |>.setDev .ftsw ⟨true, 3, 0, true⟩, sW, by decide⟩
theorem wit_FailureAtThresholdEvicts : ∃ s t : State,
    (s.mode = .run ∧ (s.dev s.tdev).errCnt + 1 = s.cfg.errThreshold ∧ s.txp = .echo ∧ (0x03 : Byte) ≠ s.tb[s.tidx]) ∧
    (t.mode = .run ∧ (t.dev t.tdev).errCnt + 1 = t.cfg.errThreshold ∧ t.txp = .ackw ∧ (0x00 : Byte) ≠ t.cfg.ack ∧
      (0x00 : Byte) ≠ t.cfg.error) :=
  ⟨sT 1 |>.setDev .ftsw ⟨true, 4, 0, true⟩, sW.setDev .ftsw ⟨true, 4, 0, true⟩, by decide⟩
/-- An LED value, a number for FTSW, and the number clause for EXP (no run reaches it, R296). -/
theorem wit_AckConfirmsTheCapturedValue : sW.mode = .run ∧ sW.txp = .ackw ∧ sW.tval = .led 0x05 ∧
    sN.tval = .num (some 7) ∧ sN.tdev = .ftsw ∧ { sN with tdev := .exp }.tdev = .exp := by decide
/-- Every phase, before and at its bound. -/
theorem wit_TickAdvancesOrTimesOut : State.reset.txp = .idle ∧ sR.txp = .rpl ∧ sR.tmr + 1 = sR.cfg.tEcho ∧
    (sT 0).tmr + 1 = (sT 0).cfg.tEcho ∧ sW.tmr + 1 ≠ sW.cfg.tAck ∧ { sW with tmr := 1 }.tmr + 1 = sW.cfg.tAck ∧
    { sR with cfg := { Config.ref with tEcho := 2 } }.tmr + 1 ≠ 2 ∧
    { sT 0 with cfg := { Config.ref with tEcho := 2 } }.txp = .echo := by decide
theorem wit_TxFailureHasOneEffect : (sT 0 |>.setDev .ftsw ⟨true, 3, 0, true⟩).ftsw.base.errCnt + 1 < 5 ∧
    (sT 0 |>.setDev .ftsw ⟨true, 4, 0, true⟩).ftsw.base.errCnt + 1 = 5 ∧ (sT 0).tdev = .ftsw ∧
    ({ sT 0 with tdev := .exp }.setDev .exp ⟨true, 4, 0, true⟩).exp.base.errCnt + 1 = 5 := by decide
/-- The three waiting phases. -/
theorem wit_TicksEndEveryWait : (sW.FlightSound ∧ sW.txp ≠ .idle) ∧ ((sT 0).FlightSound ∧ (sT 0).txp ≠ .idle) ∧
    (sR.FlightSound ∧ sR.txp ≠ .idle) := by
  refine ⟨⟨?_, by decide⟩, ⟨?_, by decide⟩, ?_, by decide⟩ <;> constructor <;> decide
theorem wit_ThresholdFailuresEvictOnce : ((sT 0).dev (sT 0).tdev).present = true ∧ ((sT 0).dev (sT 0).tdev).errCnt = 0 ∧
    (sT 0).eq.length < (sT 0).cfg.queueCap ∧ 1 ≤ (sT 0).cfg.errThreshold ∧ 4 < (sT 0).cfg.errThreshold ∧
    [TxCause.echoMismatch, .echoTimeout, .ackTimeout, .errorReply, .badReply].length = (sT 0).cfg.errThreshold ∧
    { sT 0 with tdev := .exp }.exp.base.present = true ∧ { sT 0 with tdev := .exp }.exp.base.errCnt = 0 := by decide
/-- Each clause: mode RESETTING; a pass; a pop of one event or none; a drain that waits; the hardware
scheduling; a poll inside a poll. -/
theorem wit_PollPassesOrPops : { State.reset with mode := .resetting }.mode = .resetting ∧
    (sF.mode = .run ∧ sF.cfg.sched = .software ∧ sF.call = .none ∧ sF.txp ≠ .rpl ∧ sF.byteWaiting = false ∧ sF.txp = .idle ∧ sF.explen = 0 ∧
      sF.eq = [] ∧ sF.cfg.quiesceMs = 0 ∧ sF.anyDirty = true) ∧
    (State.reset.byteWaiting = false ∧ State.reset.anyDirty = false ∧ State.reset.eq = []) ∧
    ((queued 1).byteWaiting = false ∧ (queued 1).eq = .doubleButton :: []) ∧
    ({ State.reset with input := [.rx 0x82] }.byteWaiting = true ∧ sR.call = .none ∧ sR.txp = .rpl) ∧
    ((hw (queued 1)).cfg.sched = .hardware ∧ (hw (queued 1)).eq = .doubleButton :: [] ∧ (hw sR).txp = .rpl) ∧
    { queued 1 with call := .draining }.call ≠ .none ∧ { State.reset with call := .passing }.eq = [] := by decide
theorem wit_StepRunsTheDecodedByte : ∃ s : State, s.input = .rx 0x82 :: [.tick] ∧ s.mode = .run ∧ s.pass = none ∧
    decode s.cfg (s.rxContext 0x82).1 (s.rxContext 0x82).2 = .ok (.cmdStart .btn) :=
  ⟨{ State.reset with input := [.rx 0x82, .tick] }, by decide⟩
/-- A byte in the middle of a refresh pass. -/
theorem wit_StepRunsTheDecodedByte_in_pass : ∃ s : State, s.input = [.rx 0x90] ∧ s.mode = .run ∧ s.pass ≠ none ∧ s.txp ≠ .idle ∧
    decode s.cfg (s.rxContext 0x90).1 (s.rxContext 0x90).2 = .ok (.echoOk 0x90) :=
  ⟨{ sT 0 with pass := some .ftswNum, input := [.rx 0x90] }, by decide⟩
theorem wit_StepRunsTicksAndRequests : ∃ s t : State, s.pass = none ∧ s.call ≠ .draining ∧ s.input = [.tick] ∧
    t.pass = none ∧ t.txp = .rpl ∧ t.call = .draining ∧ t.input = [.call .poll] :=
  ⟨{ State.reset with input := [.tick] }, { sR with call := .draining, input := [.call .poll] }, by decide⟩
/-- A frame on each line, and nothing owed on each line. -/
theorem wit_StepRunsRefreshLinesInOrder : sF.txp = .idle ∧ sF.ledDirty .ftsw = true ∧ sF.numDirty = true ∧ sF.ledDirty .exp = true ∧
    State.reset.ledDirty .ftsw = false ∧ State.reset.numDirty = false ∧ State.reset.ledDirty .exp = false ∧
    { sF with pass := some .expLed }.pass = some .expLed := by decide
/-- Each clause. -/
theorem wit_PollReturnsOneEvent : State.reset.call ≠ .passing ∧ { queued 1 with call := .passing }.eq = .doubleButton :: [] ∧
    { State.reset with call := .passing }.eq = [] ∧
    ({ sF with call := .draining }.txp ≠ .rpl ∧ { sF with call := .draining }.byteWaiting = false ∧
      { sF with call := .draining }.pass = none) ∧
    sF.gate = true ∧ sF.anyDirty = true ∧ (queued 1).gate = false ∧ State.reset.anyDirty = false := by decide
theorem wit_SelectedOperationIsTriggered : (sT 4).cfg.Valid ∧ (sT 4).mode = .run ∧ (sT 4).tidx.val < (sT 4).tlen.val :=
  ⟨ref_valid, by decide, by decide⟩
theorem wit_StepKeepsInvariant : ∃ s t : State, s.Inv ∧ step s = .next t :=
  ⟨State.reset, State.reset,
    ⟨ref_valid, .inl ⟨rfl, rfl⟩, by constructor <;> decide,
      ⟨by intro d; cases d <;> decide, by intro d; cases d <;> decide, by decide, by decide⟩,
      by decide, by decide, rfl, by decide⟩, rfl⟩
/-- The last byte of an INIT frame, an `ACK` in the response phase, and a tick at the bound. -/
theorem wit_PresenceChangesOnlyByItsTransitions : ∃ s t u v : State,
    (s.Inv ∧ s.AwaitsLastOf (encode s.cfg (.init 0x01 [0x00])) ∧ s.input = [.rx 0x01] ∧ step s = .next t) ∧
    (u.Inv ∧ u.txp = .ackw ∧ u.tmr + 1 = u.cfg.tAck ∧ u.failsOn .tick ∧ u.input = [.tick] ∧ step u = .next v) :=
  ⟨{ awaiting [0x81, 0x01, 0x00, 0x01] with input := [.rx 0x01] }, _, { sW with tmr := 1, input := [.tick] }, _,
    ⟨⟨ref_valid, .inr ⟨.init, by decide⟩, by constructor <;> decide,
      ⟨by intro d; cases d <;> decide, by intro d; cases d <;> decide, by decide, by decide⟩,
      by decide, by decide, rfl, by decide⟩, ⟨rfl, rfl, rfl, rfl, by decide⟩, rfl, rfl⟩,
    ⟨ref_valid, .inl ⟨rfl, rfl⟩, by constructor <;> decide,
      ⟨by intro d; cases d <;> decide, by intro d; cases d <;> decide, by decide, by decide⟩,
      by decide, by decide, rfl, by decide⟩, rfl, rfl, .inr ⟨rfl, rfl⟩, rfl, rfl⟩
/-- Stale, different, `BLANK` against 0 and 0 against `BLANK`. -/
theorem wit_DirtyMeansPresentAndUnacknowledged : sF.ftsw.base.ledStale = true ∧
    (sN.ftsw.base.present = true ∧ { sN with pendNum := some 0 }.pendNum = some 0 ∧ sN.ftsw.ackNum = none) ∧
    ({ sN with ftsw := { sN.ftsw with ackNum := some 0 } }.ftsw.ackNum = some 0 ∧ sN.pendNum = none) := by decide
/-- The gate open under the hardware scheduling, and under the other. -/
theorem wit_StepOnNoByteTestsTheGate : ∃ s t : State, (s.input = .noByte :: [] ∧ s.pass = none ∧ s.call ≠ .draining ∧
      s.cfg.sched = .hardware ∧ s.call = .none ∧ s.mode = .run ∧ s.txp = .idle ∧ s.explen = 0 ∧ s.eq = [] ∧
      s.cfg.quiesceMs = 0 ∧ s.anyDirty = true) ∧ t.input = .noByte :: [] ∧ t.cfg.sched = .software :=
  ⟨hw { sF with input := [.noByte] }, { sF with input := [.noByte] }, by decide⟩
theorem wit_LostByteAndEmptyInputChangeNothing : ∃ s t : State, (s.pass = none ∧ s.mode = .resetting ∧ s.input = [.rx 0x81]) ∧
    t.pass = none ∧ t.call ≠ .draining ∧ t.input = [] :=
  ⟨{ State.reset with mode := .resetting, input := [.rx 0x81] }, State.reset, by decide⟩
/-- By a poll, by the end of a drain, and by a gate test. -/
theorem wit_RefreshPassNeedsTheGate : ∃ s t u v w x : State,
    (step s = .next t ∧ s.pass = none ∧ t.pass ≠ none ∧ s.input = [.call .poll]) ∧
    (step u = .next v ∧ u.pass = none ∧ v.pass ≠ none ∧ u.call = .draining) ∧
    (step w = .next x ∧ w.pass = none ∧ x.pass ≠ none ∧ w.input = [.noByte]) :=
  ⟨{ sF with input := [.call .poll] }, _, { sF with call := .draining }, _, hw { sF with input := [.noByte] }, _,
    ⟨rfl, rfl, by decide, rfl⟩, ⟨rfl, rfl, by decide, rfl⟩, rfl, rfl, by decide, rfl⟩
/-- Steps of every kind the statements about all steps name. -/
theorem wit_step_next : (∃ t, step { sW with input := [.rx 0x81] } = .next t) ∧
    (∃ t, step { sW with input := [.tick] } = .next t) ∧
    (∃ t, step { State.reset with input := [.call .reset] } = .next t) := ⟨⟨_, rfl⟩, ⟨_, rfl⟩, _, rfl⟩
theorem wit_CalibrationMinimumNeverRises : ∃ s t : State, step s = .next t ∧ s.exp.calValid = true ∧ t.exp.calValid = true :=
  ⟨{ State.reset with exp := { ExpRec.zero with calValid := true } }, _, rfl, rfl, rfl⟩
theorem wit_NothingIsSentDuringAWait : ∃ s t : State, step s = .next t ∧ s.txp ≠ .idle ∧ s.input.head? = some (.rx s.tb[s.tidx]) :=
  ⟨{ sT 0 with input := [.rx 0x90] }, _, rfl, by decide, by decide⟩
theorem wit_PartialFrameHoldsOutput : ∃ s t : State, step s = .next t ∧ s.explen ≠ 0 ∧ s.pass = none ∧ s.input.head? = some .tick :=
  ⟨{ awaiting [0x82, 0x01, 0x7D, 0x7D, 0x01] with input := [.tick] }, _, rfl, by decide, rfl, rfl⟩
theorem wit_LateAckStartsInitFrame : ∃ s : State, s.cfg.Valid ∧ s.input = .rx s.cfg.ack :: [] ∧ s.mode = .run ∧ s.txp = .idle ∧
    s.pass = none :=
  ⟨{ State.reset with input := [.rx 0x81] }, ref_valid, by decide⟩
/-- The longest frame, a good one and a bad one, delivered while another is in progress. -/
theorem wit_DeliveredFrameGetsOneReply : ∃ s : State, s.cfg.Valid ∧ s.mode = .run ∧ s.txp = .idle ∧ s.pass = none ∧ s.explen ≠ 0 ∧
    (∀ data ∈ [[(0x01 : Byte), 0x7D, 0x7D, 0x7F, 0x7F, 0x01], [0x01, 0x7D, 0x7D, 0x7F, 0x7F, 0x00]],
      data.all (fun b => !top b) = true ∧ data.length + 1 = (s.cfg.len .dbtn).val) ∧
    xorAll [(0x01 : Byte), 0x7D, 0x7D, 0x7F, 0x7F, 0x01] = 0 ∧ xorAll [(0x01 : Byte), 0x7D, 0x7D, 0x7F, 0x7F, 0x00] ≠ 0 :=
  ⟨awaiting [0x82, 0x01, 0x7D, 0x7D, 0x01], ref_valid, by decide⟩

end Sys2Proof.Tests
end

section
/-! The framer's three classes of bytes (R90, R108): what one byte decodes to, in both of the framer's contexts. -/

namespace Sys2Proof

theorem decode_idle_byte (c : Config) (b : Byte) :
    decode c .idle [b] = .ok (if top b then decodeCommand c b else .stray b) := rfl

theorem decode_more_byte (c : Config) (b : Byte) :
    decode c .more [b] = .ok (if top b then decodeCommand c b else .data b) := rfl

theorem decodeCommand_eq_cmdStart {c : Config} (h : c.Valid) (b : Byte) (k : Kind) :
    decodeCommand c b = .cmdStart k ↔ b = c.cmd k := by
  rw [← Config.cmdKind_eq_some h]
  unfold decodeCommand
  cases c.cmdKind b <;> simp

theorem decodeCommand_eq_unknownCmd {c : Config} (h : c.Valid) (b : Byte) :
    decodeCommand c b = .unknownCmd b ↔ ∀ k, b ≠ c.cmd k := by
  rw [← Config.cmdKind_eq_none h]
  unfold decodeCommand
  cases c.cmdKind b <;> simp

theorem decodeCommand_ne_stray (c : Config) (b : Byte) : decodeCommand c b ≠ .stray b := by
  unfold decodeCommand
  cases c.cmdKind b <;> simp

theorem decodeCommand_ne_data (c : Config) (b : Byte) : decodeCommand c b ≠ .data b := by
  unfold decodeCommand
  cases c.cmdKind b <;> simp

/-! `onData` is what the framer makes of a byte whose bit 7 is clear: a stray byte in one context, a data byte in the
other. -/

theorem ite_top_eq_cmdStart {c : Config} (h : c.Valid) (b : Byte) (k : Kind) {onData : Instr}
    (hd : onData ≠ .cmdStart k) :
    (if top b then decodeCommand c b else onData) = .cmdStart k ↔ b = c.cmd k := by
  cases ht : top b with
  | true => simp [decodeCommand_eq_cmdStart h]
  | false =>
    have hne : b ≠ c.cmd k := fun e => by simp [e, h.cmdTop k] at ht
    simp [hd, hne]

theorem ite_top_eq_unknownCmd {c : Config} (h : c.Valid) (b : Byte) {onData : Instr}
    (hd : onData ≠ .unknownCmd b) :
    (if top b then decodeCommand c b else onData) = .unknownCmd b ↔ top b = true ∧ ∀ k, b ≠ c.cmd k := by
  cases top b with
  | true => simp [decodeCommand_eq_unknownCmd h]
  | false => simp [hd]

theorem ite_top_eq_onData {c : Config} {b : Byte} {onData : Instr} (hd : decodeCommand c b ≠ onData) :
    (if top b then decodeCommand c b else onData) = onData ↔ top b = false := by
  cases top b with
  | true => simp [hd]
  | false => simp

/-- Settles O4: a byte with bit 7 set is what the command table says, any other is the context's data byte. -/
theorem byteFallsInOneClass : Obligations.ByteFallsInOneClass := by
  intro c b h
  simp only [decode_idle_byte, decode_more_byte, Except.ok.injEq]
  exact ⟨fun k => ite_top_eq_cmdStart h b k nofun, fun k => ite_top_eq_cmdStart h b k nofun,
    ite_top_eq_unknownCmd h b nofun, ite_top_eq_unknownCmd h b nofun,
    ite_top_eq_onData (decodeCommand_ne_stray c b),
    ite_top_eq_onData (decodeCommand_ne_data c b)⟩

/-! Display numbers (R106). -/

/-- Settles O7: the hundreds digit is zero exactly below 100, hundreds and tens are both zero exactly below 10. -/
theorem numberShowsAsThreeDigits : Obligations.NumberShowsAsThreeDigits := by
  intro c v
  have hundreds : v.val / 100 = 0 ↔ v.val < 100 := by omega
  have tens : v.val < 100 ∧ v.val / 10 % 10 = 0 ↔ v.val < 10 := by omega
  refine ⟨?_, rfl⟩
  simp only [Config.patterns, Bool.and_eq_true, beq_iff_eq, and_assoc, hundreds, tens]

/-! The address quirk of a set-register sub-message (R104), by value. -/

theorem top_eq_true_iff (b : Byte) : top b = true ↔ 128 ≤ b.toNat := by
  have htop : top b = decide (128 ≤ b.toNat) := BitVec.msb_eq_decide b
  rw [htop, decide_eq_true_iff]

theorem splitAddr_eq_ite (base v : Byte) : splitAddr base v = if v.toNat < 128 then base else base + 1 := by
  unfold splitAddr
  by_cases h : v.toNat < 128
  · have ht : ¬ top v = true := by rw [top_eq_true_iff]; omega
    simp [h, ht]
  · have ht : top v = true := by rw [top_eq_true_iff]; omega
    simp [h, ht]

theorem splitData_toNat (v : Byte) : (splitData v).toNat = v.toNat % 128 := by
  have hmod : v.toNat % 128 % 256 = v.toNat % 128 := by omega
  simpa [splitData, low7] using hmod

theorem splitData_eq_and (v : Byte) : splitData v = v &&& 0x7F := by
  apply BitVec.eq_of_toNat_eq
  have hmask : v.toNat &&& 127 = v.toNat % 128 := Nat.and_two_pow_sub_one_eq_mod v.toNat 7
  simpa [splitData_toNat] using hmask.symm

namespace Machine

/-- `TB` after a frame is stored: the frame, then the bytes that stood beyond it (R180). -/
theorem State.storeTb_toList (s : State) {bs : List Byte} (h : bs.length ≤ 9) :
    (s.storeTb bs).tb.toList = bs ++ s.tb.toList.drop bs.length := by
  apply List.ext_getElem
  · simp; omega
  · intro j _ _
    by_cases hj : j < bs.length
    · simp [State.storeTb, hj]
    · have hge : bs.length ≤ j := Nat.le_of_not_lt hj
      simp [State.storeTb, hj, List.getElem_append_right hge, Nat.add_sub_cancel' hge]

/-- `TX_START` with its precondition met (R180): the body and its checksum stored over `TB`, the first byte sent. -/
theorem State.txStart_starts {s : State} {d : Device} (v : TxVal) {body : List Byte} (hmode : s.mode = .run)
    (hidle : s.txp = .idle) (hframer : s.explen = 0) (hpresent : (s.dev d).present = true)
    (hmin : 2 ≤ body.length) (hmax : body.length ≤ 8) :
    ∃ tb : Vector Byte 9, tb.toList = withCks body ++ s.tb.toList.drop (body.length + 1) ∧
      s.txStart d v body = { s with
        tb := tb
        tlen := Fin.ofNat 10 (body.length + 1)
        tidx := 0
        tdev := d
        tval := v
        txp := .echo
        tmr := 0
        trace := s.trace ++ [.tx (body.headD 0)] } := by
  have hok : s.txStartOk d body = true := by
    simp [State.txStartOk, State.txIdle, State.framerIdle, hmode, hidle, hframer, hpresent, hmin, hmax]
  have hlen : (withCks body).length = body.length + 1 := by simp [withCks]
  obtain ⟨-, hstart⟩ | ⟨hrefused, -⟩ := s.txStart_cases d v body
  · exact ⟨_, hlen ▸ s.storeTb_toList (by omega), hstart⟩
  · simp [hok] at hrefused

theorem exec_led (s : State) (d : Device) (m8 : Byte) :
    exec (.led d m8) s = .next (s.txStart d (.led m8) (s.cfg.ledBody d m8)) :=
  exec_eq_effect (.led d m8) s

theorem exec_dig (s : State) (v : DisplayNum) :
    exec (.dig v) s = .next (s.txStart .ftsw (.num v) (s.cfg.digBody v)) :=
  exec_eq_effect (.dig v) s

/-- Settles O24: `TX_START` on the four bytes of the LED body. -/
theorem ledFrameIsStarted : Obligations.LedFrameIsStarted := by
  intro s d m8 hmode hidle hframer hpresent addr data
  have hbody : s.cfg.ledBody d m8 = [s.cfg.cmdOutLed, s.cfg.idOf d, addr, data] := by
    simp only [Config.ledBody, splitAddr_eq_ite, splitData_eq_and, addr, data]
  obtain ⟨tb, htb, hstart⟩ := State.txStart_starts (.led m8) (body := [s.cfg.cmdOutLed, s.cfg.idOf d, addr, data])
    hmode hidle hframer hpresent (by simp) (by simp)
  refine ⟨tb, ?_, ?_⟩
  · rw [htb]
    simp [withCks, cks_cons, xorAll, BitVec.xor_assoc]
  · rw [exec_led, hbody, hstart]
    rfl

/-- Settles O25: `TX_START` on the eight bytes of the digit body, whose frame fills `TB`. -/
theorem digitFrameIsStarted : Obligations.DigitFrameIsStarted := by
  intro s v hmode hidle hframer hpresent p addr body
  have hbody : s.cfg.digBody v = s.cfg.cmdOutDig :: body := by
    simp only [Config.digBody, splitAddr_eq_ite, splitData_eq_and, body, addr, p]
  have hlen : (s.cfg.cmdOutDig :: body).length = 8 := rfl
  obtain ⟨tb, htb, hstart⟩ := State.txStart_starts (d := .ftsw) (.num v) hmode hidle hframer hpresent
    (by simp [body]) hlen.le
  refine ⟨tb, ?_, ?_⟩
  · have hdrop : s.tb.toList.drop 9 = [] := by simp
    rw [htb, hlen, hdrop, List.append_nil]
    rfl
  · rw [exec_dig, hbody, hstart]
    rfl

end Machine

end Sys2Proof
end

section
/-! The framer's operations of one byte (R131, R132, R134): each is selected in `TX_IDLE` of mode RUN, and then its
effect is the whole next state. -/

namespace Sys2Proof.Machine

theorem exec_of_selects {i : Instr} {s : State} (h : s.selects i = true) : exec i s = .next (s.effect i) := by
  rw [exec_eq_effect, if_pos h]

theorem State.framing_eq_true {s : State} (hmode : s.mode = .run) (hidle : s.txp = .idle) : s.framing = true := by
  simp [State.framing, hmode, hidle]

/-- A received byte that raises an error leaves two trace items and zeroes the silence counter (R130, R340). -/
theorem State.rxEvent_raise (s : State) (b : Byte) (e : ErrorCat) :
    (s.rxEvent b).raise e = { s with quiet := 0, trace := s.trace ++ [.rx b, .err e] } := by
  simp [State.rxEvent, State.emit]

/-- Settles O8: outside a reply or a frame being sent, a command byte is selected whatever the framer's position. -/
theorem commandByteStartsFrame : Obligations.CommandByteStartsFrame := by
  intro s k hmode hidle
  exact exec_of_selects (i := .cmdStart k) (State.framing_eq_true hmode hidle)

/-- Settles O9: an unknown command byte re-arms the framer (R135's re-arm) and raises the error. -/
theorem unknownCommandIdlesFramer : Obligations.UnknownCommandIdlesFramer := by
  intro s b hmode hidle htop hunknown
  have hsel : s.selects (.unknownCmd b) = true := by
    simp [State.selects, State.framing_eq_true hmode hidle, htop, hunknown]
  rw [exec_of_selects hsel]
  exact congrArg Host.Outcome.next (s.rearm.rxEvent_raise b (.unknownCommand b))

/-- Settles O12: a data byte is stray exactly when no frame is in progress. -/
theorem strayByteIsDiscarded : Obligations.StrayByteIsDiscarded := by
  intro s b hmode hidle htop hnoFrame
  have hsel : s.selects (.stray b) = true := by
    simp [State.selects, State.framing_eq_true hmode hidle, htop, hnoFrame]
  rw [exec_of_selects hsel]
  exact congrArg Host.Outcome.next (s.rxEvent_raise b (.strayByte b))

end Sys2Proof.Machine
end

section
/-! The last byte of an inbound frame (R133, R135, R150 to R152): it selects the frame's operation, and every reply to
it leads to the state `State.answered` describes. -/

namespace Sys2Proof.Machine

theorem State.AwaitsLastOf.completes {s : State} {bytes : List Byte} (h : s.AwaitsLastOf bytes) :
    s.completes bytes = true := by
  have hlast : s.plen.val + 1 = s.explen.val := h.stored.trans h.expected.symm
  simp [State.completes, State.partialFrame, State.framing_eq_true h.mode h.phase, hlast, h.expected, h.held]

/-- Storing the last byte and sending a reply leave two trace items, the byte and then the reply (R73). -/
theorem State.completeWith_startReply (s : State) (b reply : Byte) :
    (s.completeWith b).startReply reply = s.answered b reply := by
  simp [State.completeWith, State.startReply, State.answered, State.append, State.rearm, State.rxEvent, State.emit]

theorem State.completeWith_replyErr (s : State) (b : Byte) :
    (s.completeWith b).replyErr = (s.answered b s.cfg.error).raise .checksumError :=
  congrArg (·.raise .checksumError) (s.completeWith_startReply b s.cfg.error)

/-- Settles O18: the frame's last byte selects `BADSUM`, whose effect is the `ERROR` reply and no dispatch. -/
theorem badChecksumIsAnsweredWithError : Obligations.BadChecksumIsAnsweredWithError := by
  intro s k body hwf hawaits
  have hsel : s.selects (.badsum k body) = true := by
    simp [State.selects, hwf, hawaits.completes]
  have heffect : s.effect (.badsum k body) = (s.answered (body.getLastD 0) s.cfg.error).raise .checksumError :=
    s.completeWith_replyErr _
  rw [exec_of_selects hsel, heffect]
  simp [State.answered, State.emit]

end Sys2Proof.Machine
end

section
/-! The transmitter's answer to a byte it waits for (R182, R186), and what it does when it gives a frame up (R191). -/

namespace Sys2Proof.Machine

theorem State.echoing_eq_true {s : State} (hmode : s.mode = .run) (hecho : s.txp = .echo) : s.echoing = true := by
  simp [State.echoing, hmode, hecho]

theorem State.responding_eq_true {s : State} (hmode : s.mode = .run) (hackw : s.txp = .ackw) :
    s.responding = true := by
  simp [State.responding, hmode, hackw]

/-- A success for an LED value (R190): the counter and the LED cache are fields of the one record that is written. -/
theorem State.txOk_of_led {s : State} {m8 : Byte} (hval : s.tval = .led m8) :
    s.txOk = State.setDev { s with txp := .idle } s.tdev ⟨(s.dev s.tdev).present, 0, m8, false⟩ := by
  cases hdev : s.tdev <;> simp [State.txOk, State.devSuccess, State.ackCache, State.setDev, State.dev, hval, hdev]

/-- A success for a display number (R190): the counter is the pedal's, the number cache is always FTSW's. -/
theorem State.txOk_of_num {s : State} {v : DisplayNum} {d : Device} (hval : s.tval = .num v) (hdev : s.tdev = d) :
    s.txOk = { s.devSuccess d with
      txp := .idle
      ftsw := { (s.devSuccess d).ftsw with ackNum := v, numStale := false } } := by
  simp [State.txOk, State.devSuccess, State.ackCache, hval, hdev]

theorem exec_respAck {s : State} (hmode : s.mode = .run) (hackw : s.txp = .ackw) :
    exec .respAck s = .next (s.rxEvent s.cfg.ack).txOk :=
  exec_of_selects (i := .respAck) (State.responding_eq_true hmode hackw)

/-- Settles O31: `TX_OK` after the received `ACK`, by the kind of the captured value and the pedal it was for. -/
theorem ackConfirmsTheCapturedValue : Obligations.AckConfirmsTheCapturedValue := by
  intro s hmode hackw t
  have hexec := exec_respAck hmode hackw
  refine ⟨fun m8 hled => ?_, fun v hnum hdev => ?_, fun v hnum hdev => ?_⟩
  · exact hexec.trans (congrArg _ (State.txOk_of_led (s := s.rxEvent s.cfg.ack) hled))
  · exact hexec.trans (congrArg _ (State.txOk_of_num (s := s.rxEvent s.cfg.ack) hnum hdev))
  · exact hexec.trans (congrArg _ (State.txOk_of_num (s := s.rxEvent s.cfg.ack) hnum hdev))

/-- Settles O27: the index of the next byte stays inside `TB`, so its increment does not wrap. -/
theorem matchedEchoSendsNextByte : Obligations.MatchedEchoSendsNextByte := by
  intro s h hmode hecho hnotLast
  have hsel : s.selects (.echoOk s.tb[s.tidx]) = true := by
    simp [State.selects, State.echoing_eq_true hmode hecho, hnotLast]
  have hnext : s.tidx + 1 = ⟨s.tidx.val + 1, h⟩ := Fin.ext (Fin.val_add_one_of_lt' h)
  rw [exec_of_selects hsel]
  simp [State.effect, State.rxEvent, State.emit, hnext]

theorem State.devFail_of_lt {s : State} {d : Device} (h : (s.dev d).errCnt + 1 < s.cfg.errThreshold) :
    s.devFail d = s.setDev d { s.dev d with errCnt := (s.dev d).errCnt + 1 } := if_pos h

theorem State.devFail_of_ge {s : State} {d : Device} (h : s.cfg.errThreshold ≤ (s.dev d).errCnt + 1) :
    s.devFail d = (s.zeroDev d).push (.deviceOffline d) := if_neg h.not_gt

/-- `TX_FAIL` (R191): the cause is only in the trace item, and the pedal is charged in the state that item leaves. -/
theorem State.txFail_eq_devFail (s : State) (cause : TxCause) :
    s.txFail cause = State.devFail
      { s with txp := .idle, trace := s.trace ++ [.err (.txFailure cause s.tdev)] } s.tdev := rfl

/-- Settles O33: the two arms of `DEV_FAIL`, the evicting one for each pedal. -/
theorem txFailureHasOneEffect : Obligations.TxFailureHasOneEffect := by
  intro s cause t
  have hfail : s.txFail cause = t.devFail s.tdev := s.txFail_eq_devFail cause
  have hevict : ∀ d, (s.dev s.tdev).errCnt + 1 = s.cfg.errThreshold → s.tdev = d →
      s.txFail cause = (t.zeroDev d).push (.deviceOffline d) := by
    rintro _ hat rfl
    exact hfail.trans (State.devFail_of_ge (s := t) hat.ge)
  exact ⟨fun hbelow => hfail.trans (State.devFail_of_lt (s := t) hbelow), hevict .ftsw, hevict .exp⟩

end Sys2Proof.Machine
end

section
/-! A complete INIT frame (R155): the identifier it is dispatched on is the frame's own byte 1, and the pedal it names
comes online (R221). -/

namespace Sys2Proof.Machine

/-- Storing the last byte and replying keep the frame's earlier bytes in `FB` (R133). -/
theorem State.AwaitsLastOf.answered_fb {s : State} {bytes : List Byte} (h : s.AwaitsLastOf bytes) (b reply : Byte)
    {i : Nat} (hi : i < 7) (hlt : i + 1 < bytes.length) :
    (s.answered b reply).fb[i] = bytes[i] := by
  have hpos : i < s.plen.val := by have := h.stored; omega
  calc (s.answered b reply).fb[i]
      = (s.fb.toList.take s.plen.val)[i]'(by simp; omega) := by simp [State.answered, hpos.ne']
    _ = bytes.dropLast[i]'(by simp; omega) := by simp only [h.held]
    _ = bytes[i] := by simp

/-- The last byte of an INIT frame selects it: the reply is sent, then `DO_INIT` runs (R160). -/
theorem exec_init {s : State} {id : Byte} {payload : List Byte}
    (hwf : wellFormed s.cfg .frame (.init id payload) = true)
    (hawaits : s.AwaitsLastOf (encode s.cfg (.init id payload))) :
    exec (.init id payload) s = .next (s.answered (xorAll (id :: payload)) s.cfg.ack).doInit := by
  have hsel : s.selects (.init id payload) = true := by
    simp [State.selects, hwf, hawaits.completes]
  rw [exec_of_selects hsel]
  exact congrArg (fun t => Host.Outcome.next t.doInit) (s.completeWith_startReply _ _)

theorem State.doInit_of_devOf {s : State} {d : Device} (h : s.cfg.devOf s.fb[1] = some d) :
    s.doInit = s.devOnline d := by
  simp only [State.doInit, h]

/-- An INIT frame with a pedal's identifier is acknowledged and brings that pedal online (R155, R221). -/
theorem exec_init_of_devOf {s : State} {id : Byte} {payload : List Byte} {d : Device}
    (hwf : wellFormed s.cfg .frame (.init id payload) = true)
    (hawaits : s.AwaitsLastOf (encode s.cfg (.init id payload))) (hdev : s.cfg.devOf id = some d) :
    exec (.init id payload) s = .next ((s.answered (xorAll (id :: payload)) s.cfg.ack).devOnline d) := by
  have hid : (s.answered (xorAll (id :: payload)) s.cfg.ack).fb[1] = id :=
    hawaits.answered_fb _ _ (by omega) (by simp [encode, withCks])
  rw [exec_init hwf hawaits, State.doInit_of_devOf (hid.symm ▸ hdev)]

/-- Settles O13: `DEV_ONLINE` writes the whole record of the pedal it is for, so nothing of the old one is left. -/
theorem initBringsPedalOnline : Obligations.InitBringsPedalOnline := by
  intro s id payload hwf hawaits
  exact ⟨fun hftsw => exec_init_of_devOf hwf hawaits hftsw, fun hexp => exec_init_of_devOf hwf hawaits hexp⟩

end Sys2Proof.Machine
end

section
/-! What a button edge (R255) and a push into the event queue (R251, R345) write. -/

namespace Sys2Proof.Machine

/-- Settles O21: an edge writes one entry of the button vector, so the question of each bit is whether it is that
entry. -/
theorem edgeWritesItsOwnButton : Obligations.EdgeWritesItsOwnButton := by
  intro s k
  have hset : ∀ (v : Bool) (j : Fin 4), (s.ftsw.btn.set k v)[j] = if j = k then v else s.ftsw.btn[j] := by
    intro v j
    simp [Vector.getElem_set, Fin.ext_iff, eq_comm]
  exact ⟨rfl, rfl, hset true, hset false, rfl, rfl⟩

theorem State.push_of_room {s : State} (e : Event) (h : s.eq.length < s.cfg.queueCap) :
    s.push e = { s with eq := s.eq ++ [e], trace := s.trace ++ [.ev e] } := by
  obtain ⟨-, hpush⟩ | ⟨hfull, -⟩ := s.push_cases e
  · exact hpush
  · exact absurd h hfull.not_gt

theorem State.push_of_full {s : State} (e : Event) (h : s.cfg.queueCap ≤ s.eq.length) :
    s.push e = { s with trace := s.trace ++ [.drop e, .err (.queueOverflow e)] } := by
  obtain ⟨hroom, -⟩ | ⟨-, hpush⟩ := s.push_cases e
  · exact absurd hroom h.not_gt
  · exact hpush

/-- Settles O22: of the two cases of `Push`, the length of the queue picks one. -/
theorem pushAppendsOrDropsNewest : Obligations.PushAppendsOrDropsNewest :=
  fun _ e => ⟨State.push_of_room e, State.push_of_full e⟩

end Sys2Proof.Machine
end

section
/-! The caller's requests (R290 to R293) and the dirty tests (R294). Every request is selected in every state, so its
effect is the whole next state. -/

namespace Sys2Proof.Machine

theorem ledBit_getLsbD (k j : Fin 8) : (ledBit k).getLsbD j = decide (j = k) := by
  unfold ledBit
  rw [← BitVec.twoPow_eq, BitVec.getLsbD_twoPow]
  simp [Fin.ext_iff, eq_comm]

theorem getLsbD_or_ledBit (m : Byte) (k j : Fin 8) :
    (m ||| ledBit k).getLsbD j = if j = k then true else m.getLsbD j := by
  rw [BitVec.getLsbD_or, ledBit_getLsbD]
  by_cases h : j = k <;> simp [h]

theorem getLsbD_and_not_ledBit (m : Byte) (k j : Fin 8) :
    (m &&& ~~~ledBit k).getLsbD j = if j = k then false else m.getLsbD j := by
  rw [BitVec.getLsbD_and, BitVec.getLsbD_not, ledBit_getLsbD]
  by_cases h : j = k <;> simp [h]

/-- Settles O36: the mask is or-ed with the bit, or and-ed with its complement. -/
theorem ledRequestWritesOnePendingBit : Obligations.LedRequestWritesOnePendingBit :=
  fun s d k =>
    ⟨⟨_, getLsbD_or_ledBit (s.pendLed d) k, exec_of_selects (i := .setLed d k) rfl⟩,
      ⟨_, getLsbD_and_not_ledBit (s.pendLed d) k, exec_of_selects (i := .clearLed d k) rfl⟩⟩

/-- Settles O37: the number is reduced by `Fin.ofNat 1000`. -/
theorem numberRequestsWritePendingNumber : Obligations.NumberRequestsWritePendingNumber :=
  fun _ v =>
    ⟨⟨Fin.ofNat 1000 v, rfl, exec_of_selects (i := .setDisplayNumber v) rfl⟩,
      exec_of_selects (i := .clearDisplayNumber) rfl⟩

theorem State.ledDirty_eq_true_iff (s : State) (d : Device) :
    s.ledDirty d = true ↔
      (s.dev d).present = true ∧ ((s.dev d).ledStale = true ∨ s.pendLed d ≠ (s.dev d).ackLed) := by
  simp [State.ledDirty]

theorem State.numDirty_eq_true_iff (s : State) :
    s.numDirty = true ↔
      s.ftsw.base.present = true ∧ (s.ftsw.numStale = true ∨ s.pendNum ≠ s.ftsw.ackNum) := by
  simp [State.numDirty]

theorem State.anyDirty_eq_true_iff (s : State) :
    s.anyDirty = true ↔ s.ledDirty .ftsw = true ∨ s.numDirty = true ∨ s.ledDirty .exp = true := by
  simp [State.anyDirty, or_assoc]

/-- Settles O56: `BLANK` is `none`, which no number equals, so one against the other is a difference. -/
theorem dirtyMeansPresentAndUnacknowledged : Obligations.DirtyMeansPresentAndUnacknowledged := by
  intro s
  refine ⟨s.ledDirty_eq_true_iff .ftsw, s.ledDirty_eq_true_iff .exp, s.numDirty_eq_true_iff, ?_,
    s.anyDirty_eq_true_iff⟩
  intro v hpresent hblank
  have hdiffer : s.pendNum ≠ s.ftsw.ackNum := by
    obtain ⟨hpend, hack⟩ | ⟨hpend, hack⟩ := hblank <;> simp [hpend, hack]
  exact s.numDirty_eq_true_iff.mpr ⟨hpresent, .inr hdiffer⟩

end Sys2Proof.Machine
end

section
/-! The checksum as a sum of bytes (R97): what one flipped bit does to it. -/

namespace Sys2Proof

theorem xorAll_eq_foldr (bs : List Byte) : xorAll bs = bs.foldr (· ^^^ ·) 0 := by
  induction bs with
  | nil => rfl
  | cons b bs ih => simp [xorAll, ih]

theorem xorAll_eq_foldl (bs : List Byte) : xorAll bs = bs.foldl (· ^^^ ·) 0 := by
  rw [xorAll_eq_foldr, List.foldl_eq_foldr]

theorem xorAll_modify_xor (m : Byte) {bs : List Byte} {j : Nat} (h : j < bs.length) :
    xorAll (bs.modify j (· ^^^ m)) = xorAll bs ^^^ m := by
  induction bs generalizing j with
  | nil => simp at h
  | cons b bs ih =>
    cases j with
    | zero => simp only [List.modify_zero_cons, xorAll]; ac_rfl
    | succ j => simp [xorAll, ih (by simpa using h), BitVec.xor_assoc]

theorem cks_modify_xor (m : Byte) {bs : List Byte} {j : Nat} (hj : 1 ≤ j) (h : j < bs.length) :
    cks (bs.modify j (· ^^^ m)) = cks bs ^^^ m := by
  obtain ⟨j, rfl⟩ : ∃ i, j = i + 1 := ⟨j - 1, by omega⟩
  cases bs with
  | nil => simp at h
  | cons b bs => exact xorAll_modify_xor m (by simpa using h)

theorem cks_modify_zero (f : Byte → Byte) (bs : List Byte) : cks (bs.modify 0 f) = cks bs := by
  cases bs <;> rfl

theorem cks_withCks (b : Byte) (rest : List Byte) : cks (withCks (b :: rest)) = 0 := by
  simp [withCks, cks, xorAll_append, xorAll]

theorem shiftLeft_one_ne_zero : ∀ k < 8, (1#8 <<< k) ≠ 0 := by decide

/-- Settles O5: a flip at index 1 or above is one more term of the sum, and a term added twice cancels. -/
theorem checksumSeesOneFlipFromIndexOne : Obligations.ChecksumSeesOneFlipFromIndexOne := by
  refine ⟨fun b rest => xorAll_eq_foldl rest, cks_withCks, fun bs j k hj hlt hk => ?_,
    fun bs k => cks_modify_zero _ bs, fun bs j l k hj hjlt hl hllt hk => ?_⟩
  · rw [cks_modify_xor _ hj hlt]
    exact ⟨rfl, fun h => shiftLeft_one_ne_zero k hk (by simpa using h)⟩
  · rw [cks_modify_xor _ hl (by simpa using hllt), cks_modify_xor _ hj hjlt, BitVec.xor_assoc, BitVec.xor_self,
      BitVec.xor_zero]

end Sys2Proof
end

section
/-! The assembled operands (R102 to R104) by value, and the two directions of the split register value. -/

namespace Sys2Proof

theorem low7_toNat (b : Byte) : (low7 b).toNat = b.toNat % 128 := by
  simp [low7]

theorem pos14_toNat (high low : Byte) : (pos14 high low).toNat = (high.toNat % 128) * 128 + low.toNat % 128 := by
  have hlow : low.toNat % 128 < 2 ^ 7 := Nat.mod_lt _ (by decide)
  have hor := Nat.shiftLeft_add_eq_or_of_lt hlow (high.toNat % 128)
  simp only [pos14, BitVec.toNat_or, BitVec.toNat_shiftLeft, BitVec.toNat_setWidth, low7_toNat]
  rw [Nat.mod_eq_of_lt (by omega : high.toNat % 128 < 2 ^ 14), Nat.mod_eq_of_lt (by omega : low.toNat % 128 < 2 ^ 14),
    Nat.mod_eq_of_lt (by omega), ← hor, Nat.shiftLeft_eq]

theorem combo_toNat (upper lower : Byte) : (combo upper lower).toNat = upper.toNat * 256 + lower.toNat := by
  have hor := Nat.shiftLeft_add_eq_or_of_lt lower.isLt upper.toNat
  simp only [combo, BitVec.toNat_or, BitVec.toNat_shiftLeft, BitVec.toNat_setWidth]
  rw [Nat.mod_eq_of_lt (by omega), Nat.mod_eq_of_lt (by omega), Nat.mod_eq_of_lt (by omega), ← hor,
    Nat.shiftLeft_eq]

theorem splitAddr_toNat (base v : Byte) : (splitAddr base v).toNat = (base.toNat + v.toNat / 128) % 256 := by
  rw [splitAddr_eq_ite]
  split
  · rw [Nat.div_eq_of_lt ‹_›, Nat.add_zero, Nat.mod_eq_of_lt base.isLt]
  · have hone : v.toNat / 128 = 1 := by omega
    rw [hone]
    rfl

/-- Settles O6: shifted and or-ed parts do not overlap, so or is a sum. -/
theorem operandsAssembleByValue : Obligations.OperandsAssembleByValue :=
  ⟨pos14_toNat, combo_toNat, fun base v => ⟨splitAddr_toNat base v, splitData_toNat v⟩⟩

theorem top_splitData (v : Byte) : top (splitData v) = false := by
  rw [Bool.eq_false_iff, ne_eq, top_eq_true_iff, splitData_toNat]
  omega

theorem top_eq_false_iff (b : Byte) : top b = false ↔ b.toNat < 128 := by
  rw [Bool.eq_false_iff, ne_eq, top_eq_true_iff, Nat.not_le]

theorem splitData_of_top_eq_false {v : Byte} (h : top v = false) : splitData v = v := by
  rw [top_eq_false_iff] at h
  exact BitVec.eq_of_toNat_eq (by rw [splitData_toNat, Nat.mod_eq_of_lt h])

theorem or_0x80_toNat {v : Byte} (h : v.toNat < 128) : (v ||| 128#8).toNat = v.toNat + 128 := by
  have hor : 128 + v.toNat = 128 ||| v.toNat := Nat.two_pow_add_eq_or_of_lt (i := 7) h 1
  rw [BitVec.toNat_or, Nat.or_comm, Nat.add_comm, hor]
  rfl

theorem splitData_or_0x80 {v : Byte} (h : top v = true) : splitData v ||| 128#8 = v := by
  rw [top_eq_true_iff] at h
  apply BitVec.eq_of_toNat_eq
  rw [or_0x80_toNat (by rw [splitData_toNat]; omega), splitData_toNat]
  omega

theorem splitData_of_or_0x80 {v : Byte} (h : top v = false) : splitData (v ||| 128#8) = v := by
  rw [top_eq_false_iff] at h
  apply BitVec.eq_of_toNat_eq
  rw [splitData_toNat, or_0x80_toNat h]
  omega

theorem top_or_0x80 {v : Byte} (h : top v = false) : top (v ||| 128#8) = true := by
  rw [top_eq_false_iff] at h
  rw [top_eq_true_iff, or_0x80_toNat h]
  omega

theorem unsplit_split (base v : Byte) : unsplit base (splitAddr base v) (splitData v) = some v := by
  unfold unsplit splitAddr
  cases h : top v with
  | false => simp [h, splitData_of_top_eq_false h]
  | true => simp [top_splitData, splitData_or_0x80 h]

theorem split_of_unsplit {base addr data v : Byte} (h : unsplit base addr data = some v) :
    splitAddr base v = addr ∧ splitData v = data := by
  unfold unsplit at h
  split at h
  · cases h
  · next hdata =>
    rw [Bool.not_eq_true] at hdata
    split at h
    · next haddr =>
      cases h
      simp [splitAddr, hdata, haddr, splitData_of_top_eq_false hdata]
    · split at h <;> cases h
      next haddr => simp [splitAddr, top_or_0x80 hdata, haddr, splitData_of_or_0x80 hdata]

end Sys2Proof
end

section
/-! A whole inbound frame (R91 to R97): what its bytes decode to, and which bytes decode. -/

namespace Sys2Proof

theorem wellFormed_goodFrame (c : Config) (k : Kind) (id : Byte) (pl : List Byte) :
    wellFormed c .frame (goodFrame k id pl) = frameOk c k id pl := by
  cases k <;> rfl

theorem encode_goodFrame (c : Config) (k : Kind) (id : Byte) (pl : List Byte) :
    encode c (goodFrame k id pl) = withCks (c.cmd k :: id :: pl) := by
  cases k <;> rfl

/-- The last byte of a frame with a good checksum is the checksum of what stands before it. -/
theorem last_of_encode_goodFrame {c : Config} {k : Kind} {id b : Byte} {pl bytes : List Byte}
    (h : encode c (goodFrame k id pl) = bytes ++ [b]) : b = xorAll (id :: pl) := by
  rw [encode_goodFrame] at h
  exact (List.singleton_inj.mp (List.append_inj_right' h rfl)).symm

theorem top_xor (a b : Byte) : top (a ^^^ b) = (top a != top b) := BitVec.getMsbD_xor

theorem top_xorAll {bs : List Byte} (h : bs.any top = false) : top (xorAll bs) = false := by
  induction bs with
  | nil => rfl
  | cons b bs ih =>
    simp only [List.any_cons, Bool.or_eq_false_iff] at h
    simp [xorAll, top_xor, h.1, ih h.2]

theorem all_not_top_iff (bs : List Byte) : bs.all (fun b => !top b) = true ↔ bs.any top = false := by
  simp

/-- The bytes after a known command byte decide: their number, bit 7 of each, and their sum. -/
theorem decodeFrame_cmd {c : Config} (h : c.Valid) (k : Kind) (id : Byte) {rest : List Byte} (hrest : rest ≠ [])
    (hlen : rest.length + 2 = (c.len k).val) (htop : (id :: rest).any top = false) :
    decodeFrame c (c.cmd k :: id :: rest) =
      .ok (if xorAll (id :: rest) = 0 then goodFrame k id rest.dropLast else .badsum k (id :: rest)) := by
  have haccepted : ¬ ((c.cmd k :: id :: rest).length ≠ (c.len k).val ∨ rest = []) :=
    not_or.mpr ⟨not_not.mpr hlen, hrest⟩
  simp only [decodeFrame, Config.cmdKind_cmd h, if_neg haccepted, htop, Bool.false_eq_true, if_false, cks_cons]
  by_cases hsum : xorAll (id :: rest) = 0 <;> simp only [hsum, if_true, if_false]

theorem decodeFrame_goodFrame {c : Config} (h : c.Valid) {k : Kind} {id : Byte} {pl : List Byte}
    (hok : frameOk c k id pl = true) :
    decodeFrame c (withCks (c.cmd k :: id :: pl)) = .ok (goodFrame k id pl) := by
  simp only [frameOk, Bool.and_eq_true, Bool.not_eq_true', beq_iff_eq, all_not_top_iff] at hok
  obtain ⟨⟨hid, hpl⟩, hlen⟩ := hok
  have htop : (id :: pl).any top = false := by simp only [List.any_cons, hid, hpl, Bool.or_self]
  have hsum : xorAll (id :: (pl ++ [xorAll (id :: pl)])) = 0 := cks_withCks (c.cmd k) (id :: pl)
  have hframe := decodeFrame_cmd h k id (rest := pl ++ [xorAll (id :: pl)]) (by simp) (by simpa using hlen)
    (by simpa [top_xorAll htop] using htop)
  rw [hsum, if_pos rfl, List.dropLast_concat] at hframe
  exact hframe

theorem decodeFrame_badsum {c : Config} (h : c.Valid) {k : Kind} {body : List Byte}
    (hok : badBodyOk c k body = true) : decodeFrame c (c.cmd k :: body) = .ok (.badsum k body) := by
  simp only [badBodyOk, Bool.and_eq_true, beq_iff_eq, bne_iff_ne, decide_eq_true_eq, all_not_top_iff] at hok
  obtain ⟨⟨⟨htop, hlen⟩, htwo⟩, hsum⟩ := hok
  obtain ⟨id, b, rest, rfl⟩ : ∃ id b rest, body = id :: b :: rest := by
    match body, htwo with
    | id :: b :: rest, _ => exact ⟨id, b, rest, rfl⟩
  rw [decodeFrame_cmd h k id (List.cons_ne_nil b rest) hlen htop, if_neg hsum]

/-- The converse of `decodeFrame_cmd`: every rejection is excluded. -/
theorem decodeFrame_inv {c : Config} {bs : List Byte} {i : Instr} (h : decodeFrame c bs = .ok i) :
    ∃ k id rest, bs = c.cmd k :: id :: rest ∧ rest ≠ [] ∧ rest.length + 2 = (c.len k).val ∧
      (id :: rest).any top = false ∧
      (xorAll (id :: rest) = 0 ∧ i = goodFrame k id rest.dropLast ∨
        xorAll (id :: rest) ≠ 0 ∧ i = .badsum k (id :: rest)) := by
  unfold decodeFrame at h
  split at h
  · next cmd id rest =>
    split at h
    · cases h
    · next k hk =>
      split at h
      · cases h
      · next hlen =>
        obtain ⟨hlen, hrest⟩ := not_or.mp hlen
        split at h
        · cases h
        · next htop =>
          rw [Bool.not_eq_true] at htop
          refine ⟨k, id, rest, by rw [Config.eq_cmd_of_cmdKind hk], hrest, not_not.mp hlen, htop, ?_⟩
          split at h <;> cases h
          · exact .inl ⟨‹_›, rfl⟩
          · exact .inr ⟨‹_›, rfl⟩
  · cases h

/-- A list that sums to zero ends in the sum of what stands before its last byte. -/
theorem eq_dropLast_append_xorAll {id : Byte} {rest : List Byte} (hrest : rest ≠ [])
    (hsum : xorAll (id :: rest) = 0) : rest.dropLast ++ [xorAll (id :: rest.dropLast)] = rest := by
  have hsplit := List.dropLast_append_getLast hrest
  have hlast : xorAll (id :: rest.dropLast) = rest.getLast hrest := by
    rw [← hsplit, ← List.cons_append, xorAll_append] at hsum
    simpa [xorAll, BitVec.xor_eq_zero_iff] using hsum
  rw [hlast, hsplit]

theorem encode_of_decodeFrame {c : Config} {bs : List Byte} {i : Instr} (h : decodeFrame c bs = .ok i) :
    wellFormed c .frame i = true ∧ encode c i = bs := by
  obtain ⟨k, id, rest, rfl, hrest, hlen, htop, ⟨hsum, rfl⟩ | ⟨hsum, rfl⟩⟩ := decodeFrame_inv h
  · have hsplit := eq_dropLast_append_xorAll hrest hsum
    have hpos := List.length_pos_iff.mpr hrest
    simp only [List.any_cons, Bool.or_eq_false_iff] at htop
    have hdrop : rest.dropLast.any top = false := by
      have := htop.2
      rw [← hsplit, List.any_append, Bool.or_eq_false_iff] at this
      exact this.1
    refine ⟨?_, ?_⟩
    · rw [wellFormed_goodFrame]
      simp only [frameOk, htop.1, all_not_top_iff, hdrop, Bool.and_eq_true, beq_iff_eq, List.length_dropLast]
      exact ⟨⟨rfl, trivial⟩, by omega⟩
    · rw [encode_goodFrame]
      exact congrArg (c.cmd k :: id :: ·) hsplit
  · have hpos := List.length_pos_iff.mpr hrest
    have htwo : 2 ≤ (id :: rest).length := by simp; omega
    refine ⟨?_, rfl⟩
    simp only [wellFormed, badBodyOk, Bool.and_eq_true, beq_iff_eq, bne_iff_ne, decide_eq_true_eq, all_not_top_iff]
    exact ⟨trivial, ⟨⟨htop, hlen⟩, htwo⟩, hsum⟩

end Sys2Proof
end

section
/-! Outbound frames (R99 to R101, R106): reading back the pedal, the register value and the display number. -/

namespace Sys2Proof

theorem decode_led_frame {c : Config} (h : c.Valid) (d : Device) (m8 : Byte) :
    decode c .pass (withCks (c.ledBody d m8)) = .ok (.led d m8) := by
  simp [decode, withCks, Config.ledBody, decodeLed, Config.devOf_idOf h, unsplit_split]

theorem decodeLed_inv {c : Config} {cmd id addr data ck : Byte} {i : Instr}
    (h : decodeLed c cmd id addr data ck = .ok i) :
    ∃ d m8, i = .led d m8 ∧ [cmd, id, addr, data, ck] = withCks (c.ledBody d m8) := by
  unfold decodeLed at h
  split at h
  · cases h
  · next hcmd =>
    split at h
    · cases h
    · next hck =>
      split at h
      · cases h
      · next d hd =>
        split at h <;> cases h
        next m8 hm =>
        obtain ⟨haddr, hdata⟩ := split_of_unsplit hm
        refine ⟨d, m8, rfl, ?_⟩
        rw [Config.ledBody, haddr, hdata, ← Config.idOf_of_devOf hd, ← not_not.mp hcmd, withCks, not_not.mp hck]
        rfl

theorem Config.SegDistinct.digitOf_seg {c : Config} (h : c.SegDistinct) {d : Nat} (hd : d < 10) :
    c.digitOf (c.seg d) = d := by
  have hget : c.seg d = c.seg7.toList[d]'(by simpa using hd) := by simp [Config.seg, Nat.mod_eq_of_lt hd]
  have hblank : c.seg d ≠ c.segBlank := fun e => h.blank (by rw [← e, hget]; exact List.getElem_mem _)
  rw [Config.digitOf, if_neg hblank, hget, h.digits.idxOf_getElem]

theorem Config.digitOf_segBlank (c : Config) : c.digitOf c.segBlank = 0 := if_pos rfl

theorem Config.SegDistinct.seg_ne_blank {c : Config} (h : c.SegDistinct) (d : Nat) : c.seg d ≠ c.segBlank :=
  fun e => h.blank (by rw [← e]; simp [Config.seg])

/-- A suppressed digit is a zero, so every pattern shows its digit. -/
theorem Config.SegDistinct.numberOf_patterns {c : Config} (h : c.SegDistinct) (v : DisplayNum) :
    c.numberOf (c.patterns v) = some v := by
  cases v with
  | none => simp [Config.numberOf, Config.patterns]
  | some v =>
    have hhundreds : c.digitOf (c.patterns (some v)).1 = v.val / 100 := by
      rw [(numberShowsAsThreeDigits c v).1]
      split
      · next hsmall => rw [Config.digitOf_segBlank, Nat.div_eq_of_lt hsmall.2]
      · exact h.digitOf_seg (by omega)
    have htens : c.digitOf (c.patterns (some v)).2.1 = v.val / 10 % 10 := by
      rw [(numberShowsAsThreeDigits c v).1]
      dsimp only
      split
      · next hsmall => rw [Config.digitOf_segBlank, Nat.div_eq_of_lt hsmall.2]
      · exact h.digitOf_seg (by omega)
    have hones : (c.patterns (some v)).2.2 = c.seg (v.val % 10) := rfl
    have hdigit : c.digitOf (c.seg (v.val % 10)) = v.val % 10 := h.digitOf_seg (by omega)
    have hsum : 100 * (v.val / 100) + 10 * (v.val / 10 % 10) + v.val % 10 = v.val := by omega
    have hv : Fin.ofNat 1000 v.val = v := Fin.ofNat_val_eq_self v
    simp only [Config.numberOf, hhundreds, htens, hones, if_neg (h.seg_ne_blank _), hdigit, hsum, hv,
      if_true]

theorem Config.patterns_of_numberOf {c : Config} {p : Byte × Byte × Byte} {v : DisplayNum}
    (h : c.numberOf p = some v) : c.patterns v = p := by
  unfold Config.numberOf at h
  dsimp only at h
  rw [Option.ite_none_right_eq_some] at h
  obtain ⟨hp, hv⟩ := h
  rwa [Option.some.inj hv] at hp

theorem decode_dig_frame {c : Config} (h : c.SegDistinct) (v : DisplayNum) :
    decode c .pass (withCks (c.digBody v)) = .ok (.dig v) := by
  have hnum := h.numberOf_patterns v
  simp [decode, withCks, Config.digBody, decodeDig, unsplit_split, hnum]

theorem decodeDig_inv {c : Config} {cmd id aH dH aT dT aO dO ck : Byte} {i : Instr}
    (h : decodeDig c cmd id aH dH aT dT aO dO ck = .ok i) :
    ∃ v, i = .dig v ∧ [cmd, id, aH, dH, aT, dT, aO, dO, ck] = withCks (c.digBody v) := by
  unfold decodeDig at h
  split at h
  · cases h
  · next hcmd =>
    split at h
    · cases h
    · next hck =>
      split at h
      · cases h
      · next hid =>
        split at h
        · next sH sT sO hH hT hO =>
          split at h <;> cases h
          next v hv =>
          obtain ⟨haH, hdH⟩ := split_of_unsplit hH
          obtain ⟨haT, hdT⟩ := split_of_unsplit hT
          obtain ⟨haO, hdO⟩ := split_of_unsplit hO
          refine ⟨v, rfl, ?_⟩
          simp only [Config.digBody, Config.patterns_of_numberOf hv, haH, hdH, haT, hdT, haO, hdO,
            ← not_not.mp hcmd, ← not_not.mp hid]
          rw [withCks, not_not.mp hck]
          rfl
        · cases h

end Sys2Proof
end

section
/-! Encoding and decoding are inverse (R91 to R101, R109, R114), context by context. -/

namespace Sys2Proof

/-- What one byte given to the framer decodes to, when it is a command byte. -/
theorem decodeCommand_cmd {c : Config} (h : c.Valid) (k : Kind) : decodeCommand c (c.cmd k) = .cmdStart k :=
  (decodeCommand_eq_cmdStart h _ k).mpr rfl

/-- Settles O1: a frame and a command byte by the lemmas above, an outbound frame by its sub-messages, and any other
single byte because its context compares it with what the operation is encoded as. -/
theorem decodeOfEncodeIsTheOperation : Obligations.DecodeOfEncodeIsTheOperation := by
  intro c ctx i hvalid hseg hwf hevent
  cases i with
  | init id pl | btn id pl | pos id pl | dbtn id pl =>
    simp only [wellFormed, Bool.and_eq_true, beq_iff_eq] at hwf
    obtain ⟨rfl, hok⟩ := hwf
    exact decodeFrame_goodFrame hvalid hok
  | badsum k body =>
    simp only [wellFormed, Bool.and_eq_true, beq_iff_eq] at hwf
    obtain ⟨rfl, hok⟩ := hwf
    exact decodeFrame_badsum hvalid hok
  | unknownCmd b =>
    simp only [wellFormed, Bool.and_eq_true, Bool.or_eq_true, beq_iff_eq] at hwf
    obtain ⟨⟨rfl | rfl, htop⟩, hkind⟩ := hwf <;> simp [encode, decode, decodeCommand, htop, hkind]
  | cmdStart k =>
    simp only [wellFormed, Bool.or_eq_true, beq_iff_eq] at hwf
    obtain rfl | rfl := hwf <;> simp [encode, decode, hvalid.cmdTop k, decodeCommand_cmd hvalid]
  | led d m8 =>
    simp only [wellFormed, beq_iff_eq] at hwf
    exact hwf ▸ decode_led_frame hvalid d m8
  | dig v =>
    simp only [wellFormed, beq_iff_eq] at hwf
    exact hwf ▸ decode_dig_frame (hseg v rfl) v
  | data b | stray b =>
    simp only [wellFormed, Bool.and_eq_true, beq_iff_eq, Bool.not_eq_true'] at hwf
    obtain ⟨rfl, htop⟩ := hwf
    simp [encode, decode, htop]
  | echoMismatch b =>
    cases ctx <;> simp [wellFormed] at hwf
    simp [encode, decode, hwf]
  | respOther b =>
    simp only [wellFormed, Bool.and_eq_true, beq_iff_eq, bne_iff_ne] at hwf
    obtain ⟨⟨rfl, hack⟩, herror⟩ := hwf
    simp [encode, decode, hack, herror]
  | replyAck | rplEcho | echoOk | echoLast | respAck =>
    simp only [wellFormed, beq_iff_eq] at hwf
    simp [hwf, encode, decode]
  | replyErr | respError =>
    simp only [wellFormed, beq_iff_eq] at hwf
    simp [hwf, encode, decode, hvalid.errorNeAck]
  | tick | setLed | clearLed | setDisplayNumber | clearDisplayNumber | poll | reset =>
    simp only [wellFormed, beq_iff_eq] at hwf
    exact absurd hwf hevent

theorem encode_decodeCommand (c : Config) {ctx : Ctx} (hctx : ctx = .idle ∨ ctx = .more) {b : Byte}
    (htop : top b = true) :
    wellFormed c ctx (decodeCommand c b) = true ∧ encode c (decodeCommand c b) = [b] := by
  unfold decodeCommand
  split
  · next k hk => exact ⟨by simpa [wellFormed] using hctx, by rw [Config.eq_cmd_of_cmdKind hk]; rfl⟩
  · next hk => exact ⟨by simpa [wellFormed, htop, hk] using hctx, rfl⟩

/-- Settles O2: context by context, each byte string that is not rejected is what its operation is encoded as. -/
theorem decodedBytesAreTheEncoding : Obligations.DecodedBytesAreTheEncoding := by
  intro c ctx bs i hvalid h
  unfold decode at h
  split at h
  case h_1 b =>
    cases h
    cases htop : top b with
    | true => simpa [htop] using encode_decodeCommand c (.inl rfl) htop
    | false => simp [wellFormed, encode, htop]
  case h_2 b =>
    cases h
    cases htop : top b with
    | true => simpa [htop] using encode_decodeCommand c (.inr rfl) htop
    | false => simp [wellFormed, encode, htop]
  case h_3 => exact encode_of_decodeFrame h
  case h_4 b =>
    split at h
    · next hack => cases h; exact ⟨rfl, congrArg ([·]) hack.symm⟩
    · split at h <;> cases h
      next herror => exact ⟨rfl, congrArg ([·]) herror.symm⟩
  case h_5 b => cases h; exact ⟨rfl, rfl⟩
  case h_6 expect last b =>
    cases h
    by_cases hb : b = expect
    · cases last <;> simp [hb, wellFormed, encode]
    · simp [hb, wellFormed, encode]
  case h_7 b =>
    cases h
    split
    · next hack => exact ⟨rfl, congrArg ([·]) hack.symm⟩
    · next hack =>
      split
      · next herror => exact ⟨rfl, congrArg ([·]) herror.symm⟩
      · next herror => exact ⟨by simp [wellFormed, hack, herror], rfl⟩
  case h_8 =>
    obtain ⟨d, m8, rfl, hbytes⟩ := decodeLed_inv h
    exact ⟨rfl, hbytes.symm⟩
  case h_9 =>
    obtain ⟨v, rfl, hbytes⟩ := decodeDig_inv h
    exact ⟨rfl, hbytes.symm⟩
  all_goals cases h

/-- Settles O3: the words are read under REF. -/
theorem specWordsDecode : Obligations.SpecWordsDecode := by
  unfold Obligations.SpecWordsDecode
  decide

end Sys2Proof
end

section
/-! The byte the framer receives (R130 to R135): what it selects, and that what it selects is triggered. -/

namespace Sys2Proof.Machine

theorem State.rxInstr_of_top {s : State} {b : Byte} (hidle : s.txp = .idle) (htop : top b = true) :
    s.rxInstr b = decodeCommand s.cfg b := by
  simp [State.rxInstr, State.rxContext, hidle, htop, decode]

theorem State.rxInstr_of_more {s : State} {b : Byte} (hidle : s.txp = .idle) (htop : top b = false)
    (hmore : s.plen.val + 1 < s.explen.val) : s.rxInstr b = .data b := by
  have hlt : s.plen.val < s.explen.val := by omega
  simp [State.rxInstr, State.rxContext, hidle, htop, hlt, hmore.ne, decode]

theorem State.rxInstr_of_stray {s : State} {b : Byte} (hidle : s.txp = .idle) (htop : top b = false)
    (hnoFrame : ¬ s.plen.val < s.explen.val) : s.rxInstr b = .stray b := by
  simp [State.rxInstr, State.rxContext, hidle, htop, hnoFrame, decode]

/-- The byte that completes the frame is read together with the frame (R135). -/
theorem State.rxContext_of_last {s : State} {b : Byte} (hidle : s.txp = .idle) (htop : top b = false)
    (hlast : s.plen.val + 1 = s.explen.val) : s.rxContext b = (.frame, s.partialFrame ++ [b]) := by
  have hlt : s.plen.val < s.explen.val := by omega
  simp only [State.rxContext, hidle, htop, hlt, hlast, Bool.false_eq_true, if_true, if_false]

theorem State.rxInstr_of_decodes {s : State} {b : Byte} {i : Instr} (hidle : s.txp = .idle) (htop : top b = false)
    (hlast : s.plen.val + 1 = s.explen.val) (hdec : decode s.cfg .frame (s.partialFrame ++ [b]) = .ok i) :
    s.rxInstr b = i := by
  simp only [State.rxInstr, State.rxContext_of_last hidle htop hlast, hdec]

/-- Log entry 16: what completes no frame of the table is appended. -/
theorem State.rxInstr_of_rejected {s : State} {b : Byte} {e : DecodeError} (hidle : s.txp = .idle)
    (htop : top b = false) (hlast : s.plen.val + 1 = s.explen.val)
    (hdec : decode s.cfg .frame (s.partialFrame ++ [b]) = .error e) : s.rxInstr b = .data b := by
  simp only [State.rxInstr, State.rxContext_of_last hidle htop hlast, hdec]

theorem State.partialFrame_length {s : State} (hlast : s.plen.val + 1 = s.explen.val) :
    s.partialFrame.length = s.plen.val := by
  have hmax := s.explen.isLt
  simp only [State.partialFrame, List.length_take, Vector.length_toList]
  omega

/-- One byte short of the expected length, the framer waits for the last byte of what it holds. -/
theorem State.awaitsLastOf_of_last {s : State} (hmode : s.mode = .run) (hidle : s.txp = .idle)
    (hlast : s.plen.val + 1 = s.explen.val) (b : Byte) : s.AwaitsLastOf (s.partialFrame ++ [b]) := by
  have hlen := State.partialFrame_length hlast
  exact ⟨hmode, hidle, by simp; omega, by simp; omega, by simp [State.partialFrame]⟩

theorem State.selects_goodFrame (s : State) (k : Kind) (id : Byte) (pl : List Byte) :
    s.selects (goodFrame k id pl) =
      (wellFormed s.cfg .frame (goodFrame k id pl) && s.completes (encode s.cfg (goodFrame k id pl))) := by
  cases k <;> rfl

/-- The operation of a complete frame is triggered by its last byte (R135). -/
theorem State.AwaitsLastOf.selects {s : State} {bytes : List Byte} {i : Instr} (h : s.AwaitsLastOf bytes)
    (hdec : decode s.cfg .frame bytes = .ok i) : s.selects i = true := by
  obtain ⟨hwf, rfl⟩ := encode_of_decodeFrame hdec
  have hcompletes := h.completes
  obtain ⟨k, id, pl, rfl⟩ | ⟨k, body, rfl⟩ := decodeFrame_cases hdec
  · rw [State.selects_goodFrame, hwf, hcompletes, Bool.and_self]
  · simp only [State.selects, hwf, hcompletes, Bool.and_self]

/-- Bit 7 and the framer's position decide what a byte selects in `TX_IDLE`, and each case is the trigger of the
operation it selects. -/
theorem State.selects_rxInstr_of_idle {s : State} (hmode : s.mode = .run) (hidle : s.txp = .idle) (b : Byte) :
    s.selects (s.rxInstr b) = true := by
  have hframing := State.framing_eq_true hmode hidle
  cases htop : top b with
  | true =>
    rw [State.rxInstr_of_top hidle htop, decodeCommand]
    split
    · exact hframing
    · next hkind => simp [State.selects, hframing, htop, hkind]
  | false =>
    by_cases hlt : s.plen.val < s.explen.val
    · have hdata : s.selects (.data b) = true := by simp [State.selects, hframing, htop, hlt]
      by_cases hlast : s.plen.val + 1 = s.explen.val
      · cases hdec : decode s.cfg .frame (s.partialFrame ++ [b]) with
        | ok i =>
          rw [State.rxInstr_of_decodes hidle htop hlast hdec]
          exact (State.awaitsLastOf_of_last hmode hidle hlast b).selects hdec
        | error e => rwa [State.rxInstr_of_rejected hidle htop hlast hdec]
      · rwa [State.rxInstr_of_more hidle htop (by omega)]
    · rw [State.rxInstr_of_stray hidle htop hlt]
      simp [State.selects, hframing, htop, hlt]

theorem State.rxInstr_of_rpl {s : State} (hrpl : s.txp = .rpl) (b : Byte) : s.rxInstr b = .rplEcho b := by
  simp [State.rxInstr, State.rxContext, hrpl, decode]

theorem State.rxInstr_of_echo {s : State} (hecho : s.txp = .echo) (b : Byte) :
    s.rxInstr b = if b = s.tb[s.tidx] then
        (if s.tidx.val + 1 = s.tlen.val then .echoLast b else .echoOk b)
      else .echoMismatch b := by
  simp [State.rxInstr, State.rxContext, hecho, decode]

theorem State.rxInstr_of_ackw {s : State} (hackw : s.txp = .ackw) (b : Byte) :
    s.rxInstr b = if b = s.cfg.ack then .respAck else if b = s.cfg.error then .respError else .respOther b := by
  simp [State.rxInstr, State.rxContext, hackw, decode]

/-- Settles O44: phase by phase, the comparison that picks the operation is the operation's own trigger. -/
theorem selectedOperationIsTriggered : Obligations.SelectedOperationIsTriggered := by
  intro s b _ hmode hindex
  cases hphase : s.txp with
  | idle => exact State.selects_rxInstr_of_idle hmode hphase b
  | rpl => simp [State.rxInstr_of_rpl hphase, State.selects, hmode, hphase]
  | echo =>
    have hecho := State.echoing_eq_true hmode hphase
    have hlt := hindex hphase
    rw [State.rxInstr_of_echo hphase]
    split
    · next hmatch =>
      split
      · next hend => simp [State.selects, hecho, hmatch, hend]
      · next hend =>
        have hnext : s.tidx.val + 1 < s.tlen.val := by omega
        simp [State.selects, hecho, hmatch, hnext]
    · next hdiff => simpa [State.selects, hecho] using hdiff
  | ackw =>
    have hresp := State.responding_eq_true hmode hphase
    rw [State.rxInstr_of_ackw hphase]
    split
    · exact hresp
    · next hack =>
      split
      · exact hresp
      · next herror => simp [State.selects, hresp, hack, herror]

/-! A data byte (R133), and the completion test that follows it (R135). -/

theorem State.plen_add_one_val {s : State} (h : s.plen.val < s.explen.val) : (s.plen + 1).val = s.plen.val + 1 :=
  Fin.val_add_one_of_lt' (by have := s.explen.isLt; omega)

theorem exec_data {s : State} {b : Byte} (hmode : s.mode = .run) (hidle : s.txp = .idle) (htop : top b = false)
    (hlt : s.plen.val < s.explen.val) :
    exec (.data b) s = .next ((s.rxEvent b).append b).frameComplete := by
  have hsel : s.selects (.data b) = true := by
    simp [State.selects, State.framing_eq_true hmode hidle, htop, hlt]
  exact exec_of_selects hsel

theorem State.frameComplete_of_ne {s : State} (h : s.plen ≠ s.explen) : s.frameComplete = s :=
  if_neg fun hc => h hc.2

theorem State.frameComplete_of_eq {s : State} (h0 : s.explen.val ≠ 0) (h : s.plen = s.explen) :
    s.frameComplete = s.rearm.decodeFrame s.explen.val := if_pos ⟨h0, h⟩

/-- One byte short of the expected length or more, the completion test fails. -/
theorem State.frameComplete_of_more {s : State} (b : Byte) (hmore : s.plen.val + 1 < s.explen.val) :
    ((s.rxEvent b).append b).frameComplete = (s.rxEvent b).append b := by
  have hplen := State.plen_add_one_val (s := s) (by omega)
  refine State.frameComplete_of_ne fun e => ?_
  have hval : (s.plen + 1).val = s.explen.val := congrArg Fin.val e
  omega

/-- Settles O10: the completion test after the append fails. -/
theorem dataByteIsAppended : Obligations.DataByteIsAppended := by
  intro s b hmode hidle htop hmore
  rw [exec_data hmode hidle htop (by omega), State.frameComplete_of_more b hmore]
  rfl

/-- Appending the last byte re-arms the framer and runs the decoder over the whole frame (R135). -/
theorem State.frameComplete_of_last {s : State} (b : Byte) (hlast : s.plen.val + 1 = s.explen.val) :
    ((s.rxEvent b).append b).frameComplete = (s.completeWith b).decodeFrame s.explen.val := by
  have hplen := State.plen_add_one_val (s := s) (by omega)
  exact State.frameComplete_of_eq (s := (s.rxEvent b).append b) (show s.explen.val ≠ 0 by omega)
    (Fin.ext (hplen.trans hlast))

/-- With the last byte stored, the buffer holds the frame the decoder checks (R150). -/
theorem State.completeWith_fb_take {s : State} (b : Byte) (hlast : s.plen.val + 1 = s.explen.val) :
    (s.completeWith b).fb.toList.take s.explen.val = s.partialFrame ++ [b] := by
  have hmax := s.explen.isLt
  have hstored : (s.completeWith b).fb.toList = s.fb.toList.set s.plen.val b := by
    simp [State.completeWith]
  rw [hstored, ← hlast, List.take_add_one, List.take_set_of_le (Nat.le_refl _)]
  simp [State.partialFrame, List.getElem?_set]
  omega

/-- What a complete frame of each kind does after its reply (R154). -/
def State.doFrame (s : State) : Kind → State
  | .init => s.doInit
  | .btn => s.doBtn
  | .pos => s.doPos
  | .dbtn => s.doDbtn

theorem State.dispatch_of_cmdKind {s : State} {k : Kind} (h : s.cfg.cmdKind s.fb[0] = some k) :
    s.dispatch = s.doFrame k := by
  simp only [State.dispatch, h]
  cases k <;> rfl

/-- A complete frame with a good checksum is stored, answered with `ACK` and dispatched (R154, R160). -/
theorem State.effect_goodFrame (s : State) (k : Kind) (id : Byte) (pl : List Byte) :
    s.effect (goodFrame k id pl) = (s.answered (xorAll (id :: pl)) s.cfg.ack).doFrame k := by
  rw [← State.completeWith_startReply]
  cases k <;> rfl

theorem State.effect_badsum (s : State) (k : Kind) (body : List Byte) :
    s.effect (.badsum k body) = (s.answered (body.getLastD 0) s.cfg.error).raise .checksumError :=
  s.completeWith_replyErr _

/-- `DECODE` over the completed frame: the checksum decides between the two replies (R150 to R154). -/
theorem State.decodeFrame_of_last {s : State} (b : Byte) (hlast : s.plen.val + 1 = s.explen.val) :
    (s.completeWith b).decodeFrame s.explen.val =
      if cks (s.partialFrame ++ [b]) = 0 then (s.answered b s.cfg.ack).dispatch
      else (s.answered b s.cfg.error).raise .checksumError := by
  have hack : (s.completeWith b).replyAck = s.answered b s.cfg.ack := s.completeWith_startReply b s.cfg.ack
  have hcheck : (s.completeWith b).checkGood s.explen.val = (cks (s.partialFrame ++ [b]) == 0) := by
    rw [State.checkGood, State.completeWith_fb_take b hlast]
  rw [State.decodeFrame, hcheck, hack, State.completeWith_replyErr]
  simp only [beq_iff_eq]

/-- The last byte of a frame that decodes is the last byte of the operation it decodes to. -/
theorem State.effect_of_decodeFrame {s : State} {b : Byte} {i : Instr} (hvalid : s.cfg.Valid) (hmode : s.mode = .run)
    (hidle : s.txp = .idle) (hlast : s.plen.val + 1 = s.explen.val)
    (hdec : decode s.cfg .frame (s.partialFrame ++ [b]) = .ok i) :
    (s.completeWith b).decodeFrame s.explen.val = s.effect i := by
  have hawaits := State.awaitsLastOf_of_last hmode hidle hlast b
  have hbytes := (encode_of_decodeFrame hdec).2
  rw [State.decodeFrame_of_last b hlast]
  obtain ⟨k, id, rest, hframe, hrest, -, -, ⟨hsum, rfl⟩ | ⟨hsum, rfl⟩⟩ := decodeFrame_inv hdec
  · have hcks : cks (s.partialFrame ++ [b]) = 0 := by rw [hframe]; exact hsum
    have hb : b = xorAll (id :: rest.dropLast) := last_of_encode_goodFrame hbytes
    have hcmd : (s.answered b s.cfg.ack).fb[0] = s.cfg.cmd k := by
      have hpos := List.length_pos_iff.mpr hrest
      have hlen : 0 + 1 < (s.partialFrame ++ [b]).length := by rw [hframe]; simp
      rw [hawaits.answered_fb b s.cfg.ack (by omega) hlen]
      simp only [hframe, List.getElem_cons_zero]
    have hkind : (s.answered b s.cfg.ack).cfg.cmdKind (s.answered b s.cfg.ack).fb[0] = some k := by
      rw [hcmd]
      exact Config.cmdKind_cmd hvalid k
    rw [if_pos hcks, State.dispatch_of_cmdKind hkind, State.effect_goodFrame, ← hb]
  · have hcks : cks (s.partialFrame ++ [b]) ≠ 0 := by rw [hframe]; exact hsum
    have hb : (id :: rest).getLastD 0 = b := by
      have hgetLast := congrArg (List.getLastD · 0) hframe
      simp only [List.getLastD_concat] at hgetLast
      exact hgetLast.symm
    rw [if_neg hcks, State.effect_badsum, hb]

/-- Settles O11: both operations store the byte and re-arm, and `DECODE` is then what the frame's operation does. -/
theorem completingByteRunsTheFrame : Obligations.CompletingByteRunsTheFrame := by
  intro s b i hvalid hmode hidle htop hlast hdec
  have hsel := (State.awaitsLastOf_of_last hmode hidle hlast b).selects hdec
  rw [exec_data hmode hidle htop (by omega), exec_of_selects hsel, State.frameComplete_of_last b hlast,
    State.effect_of_decodeFrame hvalid hmode hidle hlast hdec]

end Sys2Proof.Machine
end

section
/-! Complete frames of each kind (R155 to R158): the decoder of the kind reads the frame's own bytes. -/

namespace Sys2Proof.Machine

/-- The last byte of a frame with a good checksum: the frame is answered with `ACK` and dispatched. -/
theorem exec_goodFrame {s : State} {k : Kind} {id : Byte} {pl : List Byte}
    (hwf : wellFormed s.cfg .frame (goodFrame k id pl) = true)
    (hawaits : s.AwaitsLastOf (encode s.cfg (goodFrame k id pl))) :
    exec (goodFrame k id pl) s = .next ((s.answered (xorAll (id :: pl)) s.cfg.ack).doFrame k) := by
  have hsel : s.selects (goodFrame k id pl) = true := by
    rw [State.selects_goodFrame, hwf, hawaits.completes, Bool.and_self]
  rw [exec_of_selects hsel, State.effect_goodFrame]

theorem length_encode_goodFrame {c : Config} {k : Kind} {id : Byte} {pl : List Byte}
    (hwf : wellFormed c .frame (goodFrame k id pl) = true) :
    (encode c (goodFrame k id pl)).length = (c.len k).val := by
  rw [wellFormed_goodFrame] at hwf
  simp only [frameOk, Bool.and_eq_true, beq_iff_eq] at hwf
  simp [encode_goodFrame, withCks, ← hwf.2]

/-- Settles O14: no pedal's identifier, so `DO_INIT` leaves the answered state. -/
theorem initOfUnknownIdentifierIsOnlyAcknowledged : Obligations.InitOfUnknownIdentifierIsOnlyAcknowledged := by
  intro s id payload hwf hawaits hnone
  have hid : (s.answered (xorAll (id :: payload)) s.cfg.ack).fb[1] = id :=
    hawaits.answered_fb _ _ (by omega) (by simp [encode, withCks])
  have hignored : (s.answered (xorAll (id :: payload)) s.cfg.ack).cfg.devOf
      (s.answered (xorAll (id :: payload)) s.cfg.ack).fb[1] = none := hid.symm ▸ hnone
  rw [exec_init hwf hawaits]
  simp only [State.doInit, hignored]

theorem State.AwaitsLastOf.answered_fb_getD {s : State} {bytes : List Byte} (h : s.AwaitsLastOf bytes)
    (b reply : Byte) (i : Fin 7) (hlt : i.val + 1 < bytes.length) :
    (s.answered b reply).fb[i] = bytes.getD i.val 0 := by
  rw [List.getD_eq_getElem _ _ (by omega)]
  exact h.answered_fb b reply i.isLt hlt

/-- A combination that lies in the payload is read from the frame's bytes (R103). -/
theorem State.AwaitsLastOf.answered_comboAt {s : State} {bytes : List Byte} (h : s.AwaitsLastOf bytes)
    (b reply : Byte) (k : Fin 6) (hlt : k.val + 2 < bytes.length) :
    (s.answered b reply).comboAt k = combo (bytes.getD k.val 0) (bytes.getD (k.val + 1) 0) := by
  unfold State.comboAt
  rw [h.answered_fb_getD b reply k.castSucc (by simp; omega), h.answered_fb_getD b reply k.succ (by simp; omega)]
  rfl

theorem State.btnDecode_of_none {s : State} {x : BitVec 16} (h : s.cfg.button x = none) : s.btnDecode x = s := by
  simp only [State.btnDecode, h]

theorem State.btnDecode_of_some {s : State} {x : BitVec 16} {e : Edge} (h : s.cfg.button x = some e) :
    s.btnDecode x = (s.applyEdge e).push (.edge e) := by
  simp only [State.btnDecode, h]

/-- Settles O15: the combination's two bytes are payload, so the buffer holds them when `BTN_DECODE` looks. -/
theorem btnFrameDecodesItsCombination : Obligations.BtnFrameDecodesItsCombination := by
  intro s id payload hvalid hwf hawaits frame t x
  have hlen : frame.length = (s.cfg.len .btn).val := length_encode_goodFrame (k := .btn) hwf
  have hin := hvalid.offBtnIn.2
  have hx : t.comboAt s.cfg.offBtn = x := hawaits.answered_comboAt _ _ _ (show _ < frame.length by omega)
  have hexec : exec (.btn id payload) s = .next (t.btnDecode x) :=
    hx ▸ exec_goodFrame (k := .btn) hwf hawaits
  exact ⟨fun hnone => hexec.trans (congrArg _ (State.btnDecode_of_none (s := t) hnone)),
    fun e hsome => hexec.trans (congrArg _ (State.btnDecode_of_some (s := t) hsome))⟩

/-- Settles O16: after the marker, `BTN_DECODE` once for each sub-field; a push or an edge changes no table. -/
theorem dbtnFrameDecodesBothCombinations : Obligations.DbtnFrameDecodesBothCombinations := by
  intro s id payload hvalid hwf hawaits frame t xa xb
  have hlen : frame.length = (s.cfg.len .dbtn).val := length_encode_goodFrame (k := .dbtn) hwf
  have hinA := hvalid.offDbtnAIn.2
  have hinB := hvalid.offDbtnBIn.2
  have hxa : (s.answered (xorAll (id :: payload)) s.cfg.ack).comboAt s.cfg.offDbtnA = xa :=
    hawaits.answered_comboAt _ _ _ (show _ < frame.length by omega)
  have hxb : (s.answered (xorAll (id :: payload)) s.cfg.ack).comboAt s.cfg.offDbtnB = xb :=
    hawaits.answered_comboAt _ _ _ (show _ < frame.length by omega)
  have hexec : exec (.dbtn id payload) s = .next ((t.btnDecode xa).btnDecode xb) :=
    hxa ▸ hxb ▸ exec_goodFrame (k := .dbtn) hwf hawaits
  have htable : t.cfg = s.cfg := by simp only [t, State.push_cfg]; rfl
  rw [hexec]
  rw [← htable]
  refine ⟨fun ha hb => ?_, fun e ha hb => ?_, fun f ha hb => ?_, fun e f ha hb => ?_⟩
  · rw [State.btnDecode_of_none ha, State.btnDecode_of_none hb]
  · rw [State.btnDecode_of_none (s := t.btnDecode xa) (by simpa using hb), State.btnDecode_of_some ha]
  · rw [State.btnDecode_of_none ha, State.btnDecode_of_some hb]
  · rw [State.btnDecode_of_some (s := t.btnDecode xa) (by simpa using hb), State.btnDecode_of_some ha]

/-- A later reading widens the pair; the first, and one equal to an end, replaces it (R257). -/
theorem ExpRec.calibrate_eq (r : ExpRec) (raw : BitVec 14) :
    ExpRec.calibrate r raw = { r with
      posMin := if r.calValid = true ∧ r.posMin < raw then r.posMin else raw
      posMax := if r.calValid = true ∧ raw < r.posMax then r.posMax else raw
      calValid := true } := by
  unfold ExpRec.calibrate
  cases hcal : r.calValid with
  | false => simp
  | true =>
    have hmin : (if raw < r.posMin then raw else r.posMin) = if r.posMin < raw then r.posMin else raw := by
      split <;> split <;> bv_omega
    have hmax : (if r.posMax < raw then raw else r.posMax) = if raw < r.posMax then r.posMax else raw := by
      split <;> split <;> bv_omega
    simp [hmin, hmax]

/-- Settles O17: the minimum that is subtracted is never above the reading, so nothing is borrowed. -/
theorem posFrameReportsAboveMinimum : Obligations.PosFrameReportsAboveMinimum := by
  intro s id payload hvalid hwf hawaits frame raw low high
  have hlen : frame.length = (s.cfg.len .pos).val := length_encode_goodFrame (k := .pos) hwf
  have hinHi := hvalid.offPosHiIn.2
  have hinLo := hvalid.offPosLoIn.2
  have hlow : low ≤ raw := by
    simp only [low]
    split <;> bv_omega
  refine ⟨?_, hlow, BitVec.toNat_sub_of_le hlow⟩
  have hhi := hawaits.answered_fb_getD (xorAll (id :: payload)) s.cfg.ack s.cfg.offPosHi
    (show _ < frame.length by omega)
  have hlo := hawaits.answered_fb_getD (xorAll (id :: payload)) s.cfg.ack s.cfg.offPosLo
    (show _ < frame.length by omega)
  have hexec := exec_goodFrame (k := .pos) hwf hawaits
  have hdo : (s.answered (xorAll (id :: payload)) s.cfg.ack).doFrame .pos =
      (s.answered (xorAll (id :: payload)) s.cfg.ack).posDecode raw := by
    simp only [State.doFrame, State.doPos]
    exact congrArg _ (congrArg₂ pos14 hhi hlo)
  have hcal : ExpRec.calibrate (s.answered (xorAll (id :: payload)) s.cfg.ack).exp raw =
      { s.exp with posMin := low, posMax := high, calValid := true } := ExpRec.calibrate_eq s.exp raw
  rw [hdo, State.posDecode, hcal] at hexec
  exact hexec

end Sys2Proof.Machine
end

section
/-! A reply on its own (R151 to R153), a pedal just come online (R28, R221), and a queue filled by pushes (R260). -/

namespace Sys2Proof.Machine

/-- Settles O19: with the framer Idle a reply row is selected, and its effect is the start of the reply phase. -/
theorem replyStartsReplyPhase : Obligations.ReplyStartsReplyPhase := by
  intro s hmode hidle hframer
  have hsel : (s.framing && s.framerIdle) = true := by
    simp [State.framing_eq_true hmode hidle, State.framerIdle, hframer]
  rw [exec_of_selects (i := .replyAck) hsel, exec_of_selects (i := .replyErr) hsel]
  refine ⟨rfl, ?_⟩
  simp [State.effect, State.replyErr, State.startReply, State.emit]

/-- Settles O20: the trigger does not look at the byte. -/
theorem replyEchoIsDiscarded : Obligations.ReplyEchoIsDiscarded := by
  intro s b hmode hrpl
  have hsel : s.selects (.rplEcho b) = true := by simp [State.selects, hmode, hrpl]
  exact exec_of_selects hsel

@[simp] theorem State.push_dev (s : State) (e : Event) (d : Device) : (s.push e).dev d = s.dev d := by
  cases d <;> simp [State.dev]

/-- Settles O57: `DEV_ONLINE` leaves the pedal present and its caches stale, whatever is pending. -/
theorem onlinePedalIsRepublished : Obligations.OnlinePedalIsRepublished := by
  intro s
  refine ⟨fun d => ?_, ?_⟩
  · exact ((s.devOnline d).ledDirty_eq_true_iff d).mpr (by simp [State.devOnline])
  · exact (s.devOnline .ftsw).numDirty_eq_true_iff.mpr (by simp [State.devOnline, State.freshDev])

/-- Settles O23: while there is room a push appends; from the first full queue on every push leaves it alone. -/
theorem queueKeepsTheFirstEvents : Obligations.QueueKeepsTheFirstEvents := by
  intro s es
  induction es generalizing s with
  | nil => intro h; simpa using h
  | cons e es ih =>
    intro h
    rw [List.foldl_cons]
    obtain ⟨hroom, hpush⟩ | ⟨hfull, hpush⟩ := s.push_cases e
    · have hkept := ih (s.push e) (by rw [hpush]; simpa using hroom)
      rw [hkept, hpush]
      simp
    · have hkept := ih (s.push e) (by rw [hpush]; exact h)
      have hlen : s.eq.length = s.cfg.queueCap := Nat.le_antisymm h hfull
      rw [hkept, hpush, List.take_left' hlen, List.take_left' hlen]

end Sys2Proof.Machine
end

section
/-! The transmitter at its refusals, failures and timeouts (R183 to R196, R222 to R226). -/

namespace Sys2Proof.Machine

theorem State.txStart_of_refused {s : State} {d : Device} (v : TxVal) (body : List Byte)
    (h : s.mode ≠ .run ∨ s.txp ≠ .idle ∨ s.explen ≠ 0 ∨ (s.dev d).present = false) :
    s.txStart d v body = s := by
  have hok : s.txStartOk d body = false := by
    obtain h | h | h | h := h <;> simp [State.txStartOk, State.txIdle, State.framerIdle, h]
  exact if_neg (by simp [hok])

/-- Settles O26: each of the four conditions is tested before anything is written. -/
theorem refusedStartChangesNothing : Obligations.RefusedStartChangesNothing := by
  intro s m8 v
  exact ⟨fun d h => (exec_led s d m8).trans (congrArg _ (State.txStart_of_refused _ _ h)),
    fun h => (exec_dig s v).trans (congrArg _ (State.txStart_of_refused (d := .ftsw) _ _ h))⟩

/-- Settles O28: the index stands at the checksum byte, so the echo is the last one. -/
theorem lastEchoAwaitsResponse : Obligations.LastEchoAwaitsResponse := by
  intro s hmode hecho hlast
  have hsel : s.selects (.echoLast s.tb[s.tidx]) = true := by
    simp [State.selects, State.echoing_eq_true hmode hecho, hlast]
  exact exec_of_selects hsel

/-- A byte that fails the frame in flight leaves the state `State.gaveUp` and the pedal to be charged (R191). -/
theorem State.rxEvent_txFail (s : State) (b : Byte) (cause : TxCause) :
    (s.rxEvent b).txFail cause = (s.gaveUp b cause).devFail s.tdev := by
  rw [State.txFail_eq_devFail]
  simp [State.rxEvent, State.emit, State.gaveUp]

theorem exec_echoMismatch {s : State} {b : Byte} (hmode : s.mode = .run) (hecho : s.txp = .echo)
    (hdiff : b ≠ s.tb[s.tidx]) :
    exec (.echoMismatch b) s = .next ((s.gaveUp b .echoMismatch).devFail s.tdev) := by
  have hsel : s.selects (.echoMismatch b) = true := by
    simpa [State.selects, State.echoing_eq_true hmode hecho] using hdiff
  rw [exec_of_selects hsel, ← State.rxEvent_txFail]
  rfl

theorem exec_respError {s : State} (hmode : s.mode = .run) (hackw : s.txp = .ackw) :
    exec .respError s = .next ((s.gaveUp s.cfg.error .errorReply).devFail s.tdev) := by
  rw [exec_of_selects (i := .respError) (State.responding_eq_true hmode hackw), ← State.rxEvent_txFail]
  rfl

theorem exec_respOther {s : State} {b : Byte} (hmode : s.mode = .run) (hackw : s.txp = .ackw)
    (hack : b ≠ s.cfg.ack) (herror : b ≠ s.cfg.error) :
    exec (.respOther b) s = .next ((s.gaveUp b .badReply).devFail s.tdev) := by
  have hsel : s.selects (.respOther b) = true := by
    simp [State.selects, State.responding_eq_true hmode hackw, hack, herror]
  rw [exec_of_selects hsel, ← State.rxEvent_txFail]
  rfl

@[simp] theorem State.gaveUp_dev (s : State) (b : Byte) (cause : TxCause) (d : Device) :
    (s.gaveUp b cause).dev d = s.dev d := by cases d <;> rfl

/-- Settles O29: each of the three bytes charges the pedal in the state `State.gaveUp`, by the counting arm. -/
theorem failureBelowThresholdIsCounted : Obligations.FailureBelowThresholdIsCounted := by
  intro s hmode hbelow counted
  have hcount : ∀ b cause, (s.gaveUp b cause).devFail s.tdev = (s.gaveUp b cause).setDev s.tdev counted := by
    intro b cause
    rw [State.devFail_of_lt (by rw [State.gaveUp_dev]; exact hbelow), State.gaveUp_dev]
  exact ⟨fun b hecho hdiff => hcount b _ ▸ exec_echoMismatch hmode hecho hdiff,
    fun hackw => hcount s.cfg.error _ ▸ exec_respError hmode hackw,
    fun b hackw hack herror => hcount b _ ▸ exec_respOther hmode hackw hack herror⟩

/-- Settles O30: the same three bytes, by the evicting arm, for either pedal. -/
theorem failureAtThresholdEvicts : Obligations.FailureAtThresholdEvicts := by
  intro s hmode hat evicted
  have hevict : ∀ b cause, (s.gaveUp b cause).devFail s.tdev = evicted (s.gaveUp b cause) := by
    intro b cause
    rw [State.devFail_of_ge (by rw [State.gaveUp_dev]; exact hat.ge)]
    simp only [evicted]
    cases s.tdev <;> rfl
  exact ⟨fun b hecho hdiff => hevict b _ ▸ exec_echoMismatch hmode hecho hdiff,
    fun hackw => hevict s.cfg.error _ ▸ exec_respError hmode hackw,
    fun b hackw hack herror => hevict b _ ▸ exec_respOther hmode hackw hack herror⟩

/-! Ticks (R192). -/

/-- The bound at which the wait of the current phase ends (R184, R189; R153 for a reply's echo). -/
def State.waitBound (s : State) : Nat :=
  match s.txp with
  | .ackw => s.cfg.tAck
  | _ => s.cfg.tEcho

theorem exec_tick (s : State) : exec .tick s = .next (s.emit .tick).quietTick.phaseTick :=
  exec_of_selects (i := .tick) rfl

theorem State.phaseTick_of_idle {s : State} (h : s.txp = .idle) : s.phaseTick = s := by
  simp only [State.phaseTick, h]

/-- Before its bound a waiting phase only counts. -/
theorem State.phaseTick_of_ne {s : State} (hwait : s.txp ≠ .idle) (h : s.tmr + 1 ≠ s.waitBound) :
    s.phaseTick = { s with tmr := s.tmr + 1 } := by
  cases hphase : s.txp with
  | idle => exact absurd hphase hwait
  | rpl | echo | ackw =>
    simp only [State.waitBound, hphase] at h
    simp [State.phaseTick, hphase, h]

theorem State.phaseTick_of_rpl_bound {s : State} (hrpl : s.txp = .rpl) (h : s.tmr + 1 = s.cfg.tEcho) :
    s.phaseTick = { s with tmr := s.tmr + 1, txp := .idle } := by
  simp [State.phaseTick, hrpl, h]

theorem State.phaseTick_of_echo_bound {s : State} (hecho : s.txp = .echo) (h : s.tmr + 1 = s.cfg.tEcho) :
    s.phaseTick = State.txFail { s with tmr := s.tmr + 1 } .echoTimeout := by
  simp [State.phaseTick, hecho, h]

theorem State.phaseTick_of_ackw_bound {s : State} (hackw : s.txp = .ackw) (h : s.tmr + 1 = s.cfg.tAck) :
    s.phaseTick = State.txFail { s with tmr := s.tmr + 1 } .ackTimeout := by
  simp [State.phaseTick, hackw, h]

/-- Settles O32: trace and silence counter first, then the phase and whether its timer reaches the bound. -/
theorem tickAdvancesOrTimesOut : Obligations.TickAdvancesOrTimesOut := by
  intro s t
  have hexec : exec .tick s = .next t.phaseTick := exec_tick s
  rw [hexec]
  have hcount : s.txp ≠ .idle → s.tmr + 1 ≠ t.waitBound → t.phaseTick = { t with tmr := s.tmr + 1 } :=
    State.phaseTick_of_ne (s := t)
  have hbound : t.waitBound = if s.txp = .ackw then s.cfg.tAck else s.cfg.tEcho := by
    cases hphase : s.txp <;> simp [State.waitBound, t, hphase]
  refine ⟨fun h => ?_, fun h hb => ?_, fun h hb => ?_, fun h hb => ?_, fun h hb => ?_, fun h hb => ?_,
    fun h hb => ?_⟩
  · rw [State.phaseTick_of_idle (s := t) h]
  · rw [hcount (by simp [h]) (by simpa [hbound, h] using hb)]
  · exact congrArg _ (State.phaseTick_of_rpl_bound (s := t) h hb)
  · rw [hcount (by simp [h]) (by simpa [hbound, h] using hb)]
  · exact congrArg _ (State.phaseTick_of_echo_bound (s := t) h hb)
  · rw [hcount (by simp [h]) (by simpa [hbound, h] using hb)]
  · exact congrArg _ (State.phaseTick_of_ackw_bound (s := t) h hb)

/-- At its bound a waiting phase ends, whichever it is. -/
theorem State.phaseTick_txp_of_eq {s : State} (hwait : s.txp ≠ .idle) (h : s.tmr + 1 = s.waitBound) :
    s.phaseTick.txp = .idle := by
  cases hphase : s.txp with
  | idle => exact absurd hphase hwait
  | rpl => rw [State.phaseTick_of_rpl_bound hphase (by simpa [State.waitBound, hphase] using h)]
  | echo => rw [State.phaseTick_of_echo_bound hphase (by simpa [State.waitBound, hphase] using h), State.txFail_txp]
  | ackw => rw [State.phaseTick_of_ackw_bound hphase (by simpa [State.waitBound, hphase] using h), State.txFail_txp]

/-- The wait ends after as many ticks as its timer is away from the bound. -/
theorem State.afterTicks_ends (n : Nat) {s : State} (hwait : s.txp ≠ .idle) (h : s.tmr + (n + 1) = s.waitBound) :
    ∃ t, s.afterTicks (n + 1) = .next t ∧ t.txp = .idle := by
  induction n generalizing s with
  | zero =>
    refine ⟨(s.emit .tick).quietTick.phaseTick, rfl, ?_⟩
    exact State.phaseTick_txp_of_eq (s := (s.emit .tick).quietTick) hwait h
  | succ n ih =>
    have htick : (s.emit .tick).quietTick.phaseTick = { (s.emit .tick).quietTick with tmr := s.tmr + 1 } :=
      State.phaseTick_of_ne (s := (s.emit .tick).quietTick) hwait
        (by have hb : (s.emit .tick).quietTick.waitBound = s.waitBound := rfl
            simp only [hb, State.quietTick_tmr, State.emit_tmr]
            omega)
    obtain ⟨t, hafter, hidle⟩ := ih (s := (s.emit .tick).quietTick.phaseTick) (by rw [htick]; exact hwait)
      (by rw [htick]; simpa [State.waitBound, Nat.add_assoc, Nat.add_comm 1] using h)
    exact ⟨t, hafter, hidle⟩

/-- Settles O34: a sound timer stands below the bound of its phase. -/
theorem ticksEndEveryWait : Obligations.TicksEndEveryWait := by
  intro s hsound hwait
  have hbelow : s.tmr < s.waitBound := by
    cases hphase : s.txp with
    | idle => exact absurd hphase hwait
    | rpl => simpa [State.waitBound, hphase] using hsound.waitEcho (.inr hphase)
    | echo => simpa [State.waitBound, hphase] using hsound.waitEcho (.inl hphase)
    | ackw => simpa [State.waitBound, hphase] using hsound.waitAck hphase
  have hmax : s.waitBound ≤ max s.cfg.tEcho s.cfg.tAck := by
    unfold State.waitBound
    split <;> omega
  exact ⟨s.waitBound - s.tmr - 1 + 1, by omega, State.afterTicks_ends _ hwait (by omega)⟩

end Sys2Proof.Machine
end

section
/-! Consecutive failures of frames to one pedal (R226). -/

namespace Sys2Proof.Machine

theorem State.setDev_dev_eq (s : State) (d : Device) : s.setDev d (s.dev d) = s := by cases d <;> rfl

theorem State.txFail_of_lt {s : State} (cause : TxCause) (h : (s.dev s.tdev).errCnt + 1 < s.cfg.errThreshold) :
    s.txFail cause = State.setDev
      { s with txp := .idle, trace := s.trace ++ [.err (.txFailure cause s.tdev)] } s.tdev
      { s.dev s.tdev with errCnt := (s.dev s.tdev).errCnt + 1 } :=
  (txFailureHasOneEffect s cause).1 h

/-- The state after failures that only counted: one record's counter has gone up by their number, and each has left
one trace item. -/
def State.counted (s : State) (causes : List TxCause) (p : Phase) : State :=
  State.setDev { s with txp := p, trace := s.trace ++ causes.map fun c => .err (.txFailure c s.tdev) } s.tdev
    { s.dev s.tdev with errCnt := (s.dev s.tdev).errCnt + causes.length }

theorem State.failures_of_lt {s : State} (causes : List TxCause)
    (h : (s.dev s.tdev).errCnt + causes.length < s.cfg.errThreshold) :
    ∃ p, s.failures causes = s.counted causes p := by
  induction causes generalizing s with
  | nil => exact ⟨s.txp, by simpa [State.failures, State.counted] using (s.setDev_dev_eq s.tdev).symm⟩
  | cons c causes ih =>
    rw [List.length_cons] at h
    have hone := State.txFail_of_lt c (s := s) (by omega)
    obtain ⟨p, hp⟩ := ih (s := s.txFail c) (by rw [hone]; simp; omega)
    refine ⟨p, ?_⟩
    have hcons : s.failures (c :: causes) = (s.txFail c).failures causes := rfl
    rw [hcons, hp, hone]
    cases hd : s.tdev <;> simp [State.counted, State.setDev, State.dev, hd, Nat.add_assoc, Nat.add_comm 1]

theorem State.counted_records (s : State) (causes : List TxCause) (p : Phase) :
    (s.tdev = .ftsw → (s.counted causes p).exp = s.exp ∧ (s.counted causes p).ftsw =
      { s.ftsw with base := { s.ftsw.base with errCnt := s.ftsw.base.errCnt + causes.length } }) ∧
    (s.tdev = .exp → (s.counted causes p).ftsw = s.ftsw ∧ (s.counted causes p).exp =
      { s.exp with base := { s.exp.base with errCnt := s.exp.base.errCnt + causes.length } }) := by
  constructor <;> intro hd <;> simp [State.counted, hd, State.setDev, State.dev]

theorem countItem_append (t : TraceItem) (xs ys : List TraceItem) :
    countItem t (xs ++ ys) = countItem t xs + countItem t ys := by
  simp [countItem]

theorem State.countItem_counted_trace (s : State) (e : Event) (causes : List TxCause) (p : Phase) :
    countItem (.ev e) (s.counted causes p).trace = countItem (.ev e) s.trace := by
  have hnone : countItem (.ev e) (causes.map fun c => TraceItem.err (.txFailure c s.tdev)) = 0 := by
    simp [countItem]
  have htrace : (s.counted causes p).trace =
      s.trace ++ causes.map fun c => TraceItem.err (.txFailure c s.tdev) := by simp [State.counted]
  rw [htrace, countItem_append, hnone, Nat.add_zero]

/-- The failure that reaches the threshold, with room in the queue: the record is zeroed, one event pushed (R223). -/
theorem State.txFail_of_eq {s : State} (cause : TxCause) (h : (s.dev s.tdev).errCnt + 1 = s.cfg.errThreshold)
    (hroom : s.eq.length < s.cfg.queueCap) :
    s.txFail cause = { s.zeroDev s.tdev with
      txp := .idle
      eq := s.eq ++ [.deviceOffline s.tdev]
      trace := s.trace ++ [.err (.txFailure cause s.tdev), .ev (.deviceOffline s.tdev)] } := by
  have hevict := State.devFail_of_ge (d := s.tdev)
    (s := { s with txp := .idle, trace := s.trace ++ [.err (.txFailure cause s.tdev)] }) h.ge
  rw [State.txFail_eq_devFail, hevict, State.push_of_room _ (by simpa using hroom)]
  cases hd : s.tdev <;> simp [State.zeroDev, hd]

/-- Settles O35: all failures but the last only count; the last finds the counter one below the threshold. -/
theorem thresholdFailuresEvictOnce : Obligations.ThresholdFailuresEvictOnce := by
  intro s causes hpresent hzero hroom hpos hlen
  have hftsw : s.tdev = .ftsw → s.ftsw.base.errCnt = 0 := fun hd => by rw [hd] at hzero; exact hzero
  have hexp : s.tdev = .exp → s.exp.base.errCnt = 0 := fun hd => by rw [hd] at hzero; exact hzero
  refine ⟨fun k hk => ?_, ?_⟩
  · have htake : (causes.take k).length = k := by simp; omega
    obtain ⟨p, hp⟩ := State.failures_of_lt (causes.take k) (s := s) (by omega)
    obtain ⟨hrecF, hrecE⟩ := s.counted_records (causes.take k) p
    rw [htake] at hrecF hrecE
    rw [hp]
    refine ⟨fun hd => ?_, fun hd => ?_, by simp [State.counted], s.countItem_counted_trace _ _ p⟩
    · obtain ⟨hother, hown⟩ := hrecF hd
      exact ⟨by rw [hown, hftsw hd, Nat.zero_add], hother⟩
    · obtain ⟨hother, hown⟩ := hrecE hd
      exact ⟨by rw [hown, hexp hd, Nat.zero_add], hother⟩
  · obtain ⟨first, last, rfl⟩ : ∃ first last, causes = first ++ [last] :=
      ⟨_, _, (List.dropLast_append_getLast (List.ne_nil_of_length_pos (by omega))).symm⟩
    rw [List.length_append, List.length_singleton] at hlen
    obtain ⟨p, hp⟩ := State.failures_of_lt first (s := s) (by omega)
    obtain ⟨hrecF, hrecE⟩ := s.counted_records first p
    have hdev : (s.counted first p).tdev = s.tdev := by simp [State.counted]
    have hat : ((s.counted first p).dev (s.counted first p).tdev).errCnt + 1 =
        (s.counted first p).cfg.errThreshold := by
      rw [hdev]
      simpa [State.counted, hzero] using hlen
    have hlast : s.failures (first ++ [last]) = (s.counted first p).txFail last := by
      rw [← hp]
      simp [State.failures]
    rw [hlast, State.txFail_of_eq last hat (by simpa [State.counted] using hroom), hdev]
    refine ⟨fun hd => ?_, fun hd => ?_, by simp [State.counted], ?_⟩
    · rw [hd]
      exact ⟨rfl, (hrecF hd).1⟩
    · rw [hd]
      exact ⟨rfl, (hrecE hd).1⟩
    · dsimp only
      rw [countItem_append, State.countItem_counted_trace]
      simp [countItem]

end Sys2Proof.Machine
end

section
/-! What the step does next, said once for each source of it: a line of the pass, the end of a drain, the next input
event (R299, R300, R10). -/

namespace Sys2Proof.Machine

theorem State.passReady_eq_false {s : State} (h : s.pass = none ∨ s.txp ≠ .idle) : s.passReady = false := by
  obtain h | h := h <;> simp [State.passReady, State.txIdle, h]

theorem State.passReady_eq_true {s : State} {l : PassLine} (hpass : s.pass = some l) (hidle : s.txp = .idle) :
    s.passReady = true := by
  simp [State.passReady, State.txIdle, hpass, hidle]

theorem State.drainOver_eq_false {s : State} (h : s.call ≠ .draining ∨ s.txp = .rpl) : s.drainOver = false := by
  obtain h | h := h <;> simp [State.drainOver, h]

theorem State.byteWaiting_of_rx {s : State} {b : Byte} {rest : List Input} (hin : s.input = .rx b :: rest) :
    s.byteWaiting = true := by
  simp [State.byteWaiting, hin]

theorem State.next_of_input {s : State} {e : Input} {rest : List Input} (hpass : s.passReady = false)
    (hdrain : s.drainOver = false) (hin : s.input = e :: rest) :
    s.next = State.onInput { s with input := rest } e := by
  simp [State.next, hpass, hdrain, hin]

theorem step_rx {s : State} {b : Byte} {rest : List Input} (hpass : s.passReady = false)
    (hin : s.input = .rx b :: rest) (hmode : s.mode = .run) :
    step s = exec (s.rxInstr b) { s with input := rest } := by
  have hdrain : s.drainOver = false := by simp [State.drainOver, State.byteWaiting_of_rx hin]
  refine step_run ((State.next_of_input hpass hdrain hin).trans ?_)
  exact if_pos hmode

theorem step_line {s : State} {l l' : PassLine} {i : Instr} (hidle : s.txp = .idle) (hpass : s.pass = some l)
    (hline : s.lineInstr l = some (i, l')) : step s = exec i { s with pass := some l' } := by
  refine step_run ?_
  simp [State.next, State.passReady_eq_true hpass hidle, State.nextInPass, hpass, hline]

theorem step_lastLine {s : State} {l : PassLine} (hidle : s.txp = .idle) (hpass : s.pass = some l)
    (hline : s.lineInstr l = none) : step s = .next s.endPass := by
  refine step_move ?_
  simp [State.next, State.passReady_eq_true hpass hidle, State.nextInPass, hpass, hline]

theorem step_endDrain {s : State} (hpass : s.passReady = false) (hdrain : s.drainOver = true) :
    step s = .next s.endDrain := by
  refine step_move ?_
  simp [State.next, hpass, hdrain]

/-- Settles O40: a waiting byte is never the end of a drain, and `rxInstr` is what the bytes decode to. -/
theorem stepRunsTheDecodedByte : Obligations.StepRunsTheDecodedByte := by
  intro s b rest i hin hmode hpass hdec
  have hinstr : s.rxInstr b = i := by simp only [State.rxInstr, hdec]
  rw [step_rx (State.passReady_eq_false hpass) hin hmode, hinstr]

/-- Settles O41: neither a line of the pass nor the end of the drain is due, so the event is taken. -/
theorem stepRunsTicksAndRequests : Obligations.StepRunsTicksAndRequests := by
  intro s rest hpass hdrain
  have hpass := State.passReady_eq_false hpass
  have hdrain := State.drainOver_eq_false hdrain
  exact ⟨fun hin => step_run (State.next_of_input hpass hdrain hin),
    fun r hin => step_run (State.next_of_input hpass hdrain hin)⟩

/-- Settles O42: from each line on, the first dirty cache is the frame that is sent. -/
theorem stepRunsRefreshLinesInOrder : Obligations.StepRunsRefreshLinesInOrder := by
  intro s hidle
  refine ⟨fun hpass hled => ?_, fun hpass hnum => ?_, fun hpass hled => ?_, fun l hpass hled hnum hexp => ?_⟩
  · exact step_line hidle hpass (by simp [State.lineInstr, hled, State.pendLed])
  · obtain ⟨hpass, hled⟩ | hpass := hpass
    · exact step_line hidle hpass (by simp [State.lineInstr, hled, hnum])
    · exact step_line hidle hpass (by simp [State.lineInstr, hnum])
  · obtain ⟨hpass, hclean, hnum⟩ | ⟨hpass, hnum⟩ | hpass := hpass
    · exact step_line hidle hpass (by simp [State.lineInstr, hclean, hnum, hled, State.pendLed])
    · exact step_line hidle hpass (by simp [State.lineInstr, hnum, hled, State.pendLed])
    · exact step_line hidle hpass (by simp [State.lineInstr, hled, State.pendLed])
  · refine step_lastLine hidle hpass ?_
    cases l with
    | ftswLed => simp [State.lineInstr, hled rfl, hnum (.inl rfl), hexp nofun]
    | ftswNum => simp [State.lineInstr, hnum (.inr rfl), hexp nofun]
    | expLed => simp [State.lineInstr, hexp nofun]
    | done => rfl

/-- Settles O45: `exec` always answers a next state, and so does a move. -/
theorem stepAlwaysGoesOn : Obligations.StepAlwaysGoesOn := by
  intro s
  cases hnext : s.next with
  | run i t => exact ⟨_, (step_run hnext).trans (exec_eq_effect i t)⟩
  | move t => exact ⟨t, step_move hnext⟩

/-- Settles O59: in mode RESETTING a byte is taken and nothing is run; with no input there is nothing to take. -/
theorem lostByteAndEmptyInputChangeNothing : Obligations.LostByteAndEmptyInputChangeNothing := by
  intro s hpass
  have hpass := State.passReady_eq_false hpass
  refine ⟨fun b rest hmode hin => ?_, fun hdrain hin => ?_⟩
  · have hdrain : s.drainOver = false := by simp [State.drainOver, State.byteWaiting_of_rx hin]
    refine step_move ((State.next_of_input hpass hdrain hin).trans ?_)
    exact if_neg (by simp [hmode])
  · exact step_move (by simp [State.next, hpass, State.drainOver_eq_false hdrain, hin])

end Sys2Proof.Machine
end

section
/-! The gate (R298), the pop (R252), and the poll around them (R300, R304). -/

namespace Sys2Proof.Machine

theorem State.gate_eq_true_iff (s : State) :
    s.gate = true ↔ s.mode = .run ∧ s.txp = .idle ∧ s.explen = 0 ∧ s.eq = [] ∧
      (s.cfg.quiesceMs = 0 ∨ s.quiet = s.cfg.quiesceMs) := by
  simp [State.gate, State.txIdle, State.framerIdle, State.queueEmpty, and_assoc]

theorem State.popRet_of_nil {s : State} (h : s.eq = []) :
    s.popRet = { s with trace := s.trace ++ [.ret none] } := by
  simp only [State.popRet, h]
  simp [State.emit, h]

theorem State.popRet_of_cons {s : State} {e : Event} {rest : List Event} (h : s.eq = e :: rest) :
    s.popRet = { s with eq := rest, trace := s.trace ++ [.ret (some e)] } := by
  simp only [State.popRet, h]
  rfl

theorem State.endDrain_of_open {s : State} (hgate : s.gate = true) (hdirty : s.anyDirty = true) :
    s.endDrain = { s.takeNoByte with pass := some .ftswLed, call := .passing } := by
  obtain ⟨-, -, h⟩ | ⟨hclosed, -⟩ := s.endDrain_cases
  · exact h
  · simp [hgate, hdirty] at hclosed

theorem State.endDrain_of_closed {s : State} (h : s.gate = false ∨ s.anyDirty = false) :
    s.endDrain = { s.takeNoByte.popRet with call := .none } := by
  obtain ⟨hgate, hdirty, -⟩ | ⟨-, hend⟩ := s.endDrain_cases
  · simp [hgate, hdirty] at h
  · exact hend

theorem State.endPass_of_passing {s : State} (h : s.call = .passing) :
    s.endPass = { State.popRet { s with pass := none } with call := .none } := by
  simp [State.endPass, h]

theorem State.endPass_of_ne {s : State} (h : s.call ≠ .passing) : s.endPass = { s with pass := none } := by
  simp [State.endPass, h]

/-- Settles O43: the two ends, and the one pop in each. -/
theorem pollReturnsOneEvent : Obligations.PollReturnsOneEvent := by
  intro s
  refine ⟨State.endPass_of_ne, fun hcall hempty => ?_, fun e rest hcall hqueue => ?_,
    fun hcall hphase hwaiting hpass => ?_, State.endDrain_of_open, State.endDrain_of_closed⟩
  · rw [State.endPass_of_passing hcall, State.popRet_of_nil (s := { s with pass := none }) hempty]
  · rw [State.endPass_of_passing hcall, State.popRet_of_cons (s := { s with pass := none }) hqueue]
  · exact step_endDrain (State.passReady_eq_false hpass) (by simp [State.drainOver, hcall, hphase, hwaiting])

theorem exec_poll (s : State) : exec .poll s = .next (s.emit (.call .poll)).pollBody :=
  exec_of_selects (i := .poll) rfl

theorem State.pollBody_of_resetting {s : State} (h : s.mode = .resetting) : s.pollBody = s.emit (.ret none) :=
  if_pos h

theorem State.pollBody_of_pop {s : State} (hmode : s.mode = .run) (h : s.cfg.sched = .hardware ∨ s.call ≠ .none) :
    s.pollBody = s.popRet := by
  simp [State.pollBody, hmode, h]

theorem State.pollBody_of_over {s : State} (hmode : s.mode = .run) (hsched : s.cfg.sched = .software)
    (hcall : s.call = .none) (hphase : s.txp ≠ .rpl) (hwaiting : s.byteWaiting = false) :
    s.pollBody = s.startDrain.endDrain := by
  have hover : s.startDrain.drainOver = true := by
    have hw : s.startDrain.byteWaiting = false := hwaiting
    have hc : s.startDrain.call = .draining := rfl
    simp [State.drainOver, hw, hc, hphase]
  simp [State.pollBody, hmode, hsched, hcall, hover]

theorem State.pollBody_of_draining {s : State} (hmode : s.mode = .run) (hsched : s.cfg.sched = .software)
    (hcall : s.call = .none) (h : s.txp = .rpl ∨ s.byteWaiting = true) : s.pollBody = s.startDrain := by
  have hgoes : s.startDrain.drainOver = false := by
    have hw : s.startDrain.byteWaiting = s.byteWaiting := rfl
    obtain h | h := h <;> simp [State.drainOver, hw, h]
  simp [State.pollBody, hmode, hsched, hcall, hgoes]

/-- A poll that finds the drain over and the gate shut, or nothing dirty, returns one event (R300). -/
theorem State.endDrain_startDrain_of_closed {s : State} (hcall : s.call = .none)
    (h : ¬ (s.gate = true ∧ s.anyDirty = true)) : s.startDrain.endDrain = s.takeNoByte.popRet := by
  have hclosed : s.gate = false ∨ s.anyDirty = false := by
    simpa [imp_iff_not_or] using h
  rw [State.endDrain_of_closed (s := s.startDrain) hclosed]
  obtain ⟨hqueue, hpop⟩ | ⟨e, rest, hqueue, hpop⟩ := s.takeNoByte.popRet_cases
  · rw [hpop, State.popRet_of_nil (s := s.startDrain.takeNoByte) hqueue, ← hcall]
    rfl
  · rw [hpop, State.popRet_of_cons (s := s.startDrain.takeNoByte) hqueue, ← hcall]
    rfl

/-- Settles O38: the five ways `State.pollBody` can go, and in the one that ends the drain at once, the gate. -/
theorem pollPassesOrPops : Obligations.PollPassesOrPops := by
  intro s
  have hgate := s.gate_eq_true_iff
  rw [exec_poll]
  refine ⟨fun hmode => ?_, ?_, fun hmode hsched hcall hgoes => ?_, fun hmode hpops => ?_⟩
  · rw [State.pollBody_of_resetting (s := s.emit _) hmode]
    simp [State.emit]
  · intro hmode hsched hcall hphase hwaiting open_ t
    rw [State.pollBody_of_over (s := s.emit _) hmode hsched hcall hphase hwaiting]
    have hopen : open_ ↔ s.gate = true ∧ s.anyDirty = true := by
      simp only [open_, hgate, hmode, true_and, and_assoc]
    rw [hopen]
    refine ⟨fun ⟨hg, hd⟩ => ?_, fun hclosed hqueue => ?_, fun hclosed e rest hqueue => ?_⟩
    · rw [State.endDrain_of_open (s := (s.emit _).startDrain) hg hd]
      rfl
    · rw [State.endDrain_startDrain_of_closed (s := s.emit _) hcall hclosed,
        State.popRet_of_nil (s := (s.emit _).takeNoByte) hqueue]
      simp [t, State.takeNoByte, State.emit]
    · rw [State.endDrain_startDrain_of_closed (s := s.emit _) hcall hclosed,
        State.popRet_of_cons (s := (s.emit _).takeNoByte) hqueue]
      simp [t, State.takeNoByte, State.emit]
  · rw [State.pollBody_of_draining (s := s.emit _) hmode hsched hcall hgoes]
    rfl
  · rw [State.pollBody_of_pop (s := s.emit _) hmode hpops]
    refine ⟨fun hqueue => ?_, fun e rest hqueue => ?_⟩
    · rw [State.popRet_of_nil (s := s.emit _) hqueue]
      simp [State.emit]
    · rw [State.popRet_of_cons (s := s.emit _) hqueue]
      simp [State.emit]

/-- Settles O58: outside a drain the answer is taken, and the gate test decides. -/
theorem stepOnNoByteTestsTheGate : Obligations.StepOnNoByteTestsTheGate := by
  intro s rest hin hpass hdrain open_
  have hstep : step s = .next (State.gateTest { s with input := rest }) :=
    step_move (State.next_of_input (State.passReady_eq_false hpass) (State.drainOver_eq_false hdrain) hin)
  rw [hstep]
  have hgate := State.gate_eq_true_iff { s with input := rest }
  obtain ⟨hsched, hcall, hnone, hg, hdirty, htest⟩ | ⟨hclosed, htest⟩ := State.gateTest_cases { s with input := rest }
  · rw [htest]
    obtain ⟨hmode, hidle, hframer, hqueue, hquiet⟩ := hgate.mp hg
    exact ⟨fun _ => rfl, fun h => absurd ⟨hsched, hcall, hnone, hmode, hidle, hframer, hqueue, hquiet, hdirty⟩ h⟩
  · rw [htest]
    refine ⟨fun ⟨hsched, hcall, hnone, hmode, hidle, hframer, hqueue, hquiet, hdirty⟩ => ?_, fun _ => rfl⟩
    have := hclosed hsched hcall hnone (hgate.mpr ⟨hmode, hidle, hframer, hqueue, hquiet⟩)
    exact absurd (hdirty.symm.trans this) (by decide)

end Sys2Proof.Machine
end

section
/-! What a step can be, as two relations: a move, which writes no device, no parameter and no byte of the bus, and an
operation run in a state that differs from the old one in `input` or `pass` only. -/

namespace Sys2Proof.Machine

theorem sentBytes_append (xs ys : List TraceItem) : sentBytes (xs ++ ys) = sentBytes xs ++ sentBytes ys := by
  induction xs with
  | nil => rfl
  | cons x xs ih => cases x <;> simp [sentBytes, ih]

/-- The trace is only extended, and by no sent byte. -/
def State.Silent (s t : State) : Prop := ∃ new, t.trace = s.trace ++ new ∧ sentBytes new = []

theorem State.Silent.refl (s : State) : s.Silent s := ⟨[], by simp [sentBytes]⟩

theorem State.Silent.trans {s t u : State} (h : s.Silent t) (h' : t.Silent u) : s.Silent u := by
  obtain ⟨new, ht, hnew⟩ := h
  obtain ⟨new', hu, hnew'⟩ := h'
  exact ⟨new ++ new', by rw [hu, ht, List.append_assoc], by rw [sentBytes_append, hnew, hnew', List.append_nil]⟩

/-- A move: no operation runs, events may leave the queue, and a pass begins with the framer Idle only. -/
structure State.Moves (s t : State) : Prop where
  frame : ∃ input eq trace call pass,
    t = { s with input := input, eq := eq, trace := trace, call := call, pass := pass }
  queue : t.eq <:+ s.eq
  silent : s.Silent t
  pass : t.pass ≠ none → s.pass ≠ none ∨ s.explen = 0

theorem State.Moves.refl (s : State) : s.Moves s :=
  ⟨⟨_, _, _, _, _, rfl⟩, List.suffix_rfl, .refl s, .inl⟩

theorem State.Moves.trans {s t u : State} (h : s.Moves t) (h' : t.Moves u) : s.Moves u := by
  obtain ⟨⟨_, _, _, _, _, rfl⟩, hqueue, hsilent, hpass⟩ := h
  obtain ⟨⟨_, _, _, _, _, rfl⟩, hqueue', hsilent', hpass'⟩ := h'
  refine ⟨⟨_, _, _, _, _, rfl⟩, hqueue'.trans hqueue, hsilent.trans hsilent', fun hne => ?_⟩
  obtain hne | hframer := hpass' hne
  · exact hpass hne
  · exact .inr hframer

/-- Taking input, ending a pass or ending a call writes nothing else. -/
theorem State.moves_control (s : State) (input : List Input) (call : CallPhase) {pass : Option PassLine}
    (h : pass ≠ none → s.pass ≠ none ∨ s.explen = 0) :
    s.Moves { s with input := input, call := call, pass := pass } :=
  ⟨⟨_, _, _, _, _, rfl⟩, List.suffix_rfl, .refl s, h⟩

theorem State.popRet_moves (s : State) : s.Moves s.popRet := by
  obtain ⟨-, hpop⟩ | ⟨e, rest, hqueue, hpop⟩ := s.popRet_cases
  · rw [hpop]
    exact ⟨⟨_, _, _, _, _, rfl⟩, List.suffix_rfl, ⟨_, rfl, rfl⟩, .inl⟩
  · rw [hpop]
    exact ⟨⟨_, _, _, _, _, rfl⟩, hqueue ▸ List.suffix_cons e rest, ⟨_, rfl, rfl⟩, .inl⟩

theorem State.endPass_moves (s : State) : s.Moves s.endPass := by
  have hend : s.Moves { s with pass := none } := s.moves_control s.input s.call nofun
  obtain ⟨-, h⟩ | ⟨-, h⟩ := s.endPass_cases
  · rw [h]
    exact (hend.trans (State.popRet_moves _)).trans (State.moves_control _ _ .none .inl)
  · rwa [h]

theorem State.endDrain_moves (s : State) : s.Moves s.endDrain := by
  obtain ⟨hgate, -, h⟩ | ⟨-, h⟩ := s.endDrain_cases
  · rw [h]
    exact s.moves_control _ _ fun _ => .inr (s.gate_eq_true_iff.mp hgate).2.2.1
  · rw [h]
    have htake : s.Moves s.takeNoByte := s.moves_control _ s.call .inl
    exact (htake.trans (State.popRet_moves _)).trans (State.moves_control _ _ .none .inl)

theorem State.gateTest_moves (s : State) : s.Moves s.gateTest := by
  obtain ⟨-, -, -, hgate, -, h⟩ | ⟨-, h⟩ := s.gateTest_cases
  · rw [h]
    exact s.moves_control s.input s.call fun _ => .inr (s.gate_eq_true_iff.mp hgate).2.2.1
  · rw [h]
    exact .refl s

theorem State.pollBody_moves (s : State) : s.Moves s.pollBody := by
  have hstart : s.Moves s.startDrain := s.moves_control s.input .draining .inl
  obtain ⟨-, h⟩ | ⟨-, -, h⟩ | ⟨-, -, -, ⟨-, -, h⟩ | ⟨-, h⟩⟩ := s.pollBody_cases
  · rw [h]
    exact ⟨⟨_, _, _, _, _, rfl⟩, List.suffix_rfl, ⟨_, rfl, rfl⟩, .inl⟩
  · rw [h]
    exact s.popRet_moves
  · rw [h]
    exact hstart.trans (State.endDrain_moves _)
  · rwa [h]

/-- The operations a step can run, the state each runs in, and where it comes from. -/
inductive State.Runs (s : State) : Instr → State → Prop where
  /-- An LED line of a refresh pass (R299). -/
  | led (d : Device) (l : PassLine) : s.txp = .idle → s.pass ≠ none →
      s.Runs (.led d (s.pendLed d)) { s with pass := some l }
  /-- The digit line of a refresh pass (R299). -/
  | dig (l : PassLine) : s.txp = .idle → s.pass ≠ none → s.Runs (.dig s.pendNum) { s with pass := some l }
  /-- A received byte (R130). -/
  | byte (b : Byte) (rest : List Input) : s.passReady = false → s.input = .rx b :: rest → s.mode = .run →
      s.Runs (s.rxInstr b) { s with input := rest }
  /-- A tick (R192). -/
  | tick (rest : List Input) : s.input = .tick :: rest → s.Runs .tick { s with input := rest }
  /-- A caller request (R10). -/
  | call (r : Request) (rest : List Input) : s.input = .call r :: rest → s.Runs r.instr { s with input := rest }

theorem State.Runs.moves {s u : State} {i : Instr} (h : s.Runs i u) : s.Moves u := by
  cases h with
  | led d l _ hpass => exact s.moves_control s.input s.call fun _ => .inl hpass
  | dig l _ hpass => exact s.moves_control s.input s.call fun _ => .inl hpass
  | byte b rest | tick rest | call r rest => exact s.moves_control rest s.call .inl

/-- Every step is a move, or runs an operation that is triggered. -/
theorem step_moves_or_runs {s t : State} (h : step s = .next t) :
    s.Moves t ∨ ∃ i u, s.Runs i u ∧ u.selects i = true ∧ t = u.effect i := by
  have hexec : ∀ {i u}, s.Runs i u → exec i u = .next t →
      s.Moves t ∨ ∃ i u, s.Runs i u ∧ u.selects i = true ∧ t = u.effect i := by
    intro i u hruns hx
    obtain rfl | ⟨hsel, rfl⟩ := exec_cases hx
    · exact .inl hruns.moves
    · exact .inr ⟨i, u, hruns, hsel, rfl⟩
  obtain ⟨i, l, hidle, hpass, hline, hx⟩ | ⟨-, -, rfl⟩ | ⟨-, -, rfl⟩ | rfl | ⟨b, rest, hready, hin, hmode, hx⟩ |
    ⟨b, rest, -, -, rfl⟩ | ⟨rest, -, rfl⟩ | ⟨rest, hin, hx⟩ | ⟨r, rest, hin, hx⟩ := step_cases h
  · obtain ⟨d, rfl⟩ | rfl := State.lineInstr_cases hline
    · exact hexec (.led d l hidle hpass) hx
    · exact hexec (.dig l hidle hpass) hx
  · exact .inl s.endPass_moves
  · exact .inl s.endDrain_moves
  · exact .inl (.refl _)
  · exact hexec (.byte b rest hready hin hmode) hx
  · exact .inl (s.moves_control rest s.call .inl)
  · have htake : s.Moves { s with input := rest } := s.moves_control rest s.call .inl
    exact .inl (htake.trans (State.gateTest_moves _))
  · exact hexec (.tick rest hin) hx
  · exact hexec (.call r rest hin) hx

theorem State.rxInstr_ne_request (s : State) (b : Byte) (r : Request) : s.rxInstr b ≠ r.instr := by
  obtain ⟨-, h⟩ | ⟨-, h | h | h⟩ | ⟨-, h | h | h⟩ |
    ⟨-, ⟨k, id, pl, h⟩ | ⟨k, body, h⟩ | ⟨k, h⟩ | h | h | h⟩ := s.rxInstr_cases b
  case inr.inr.inr.inl => cases k <;> cases r <;> simp [h, goodFrame, Request.instr]
  all_goals cases r <;> simp [h, Request.instr]

/-- A caller's operation runs only when the caller's request is the next input event. -/
theorem State.Runs.head_of_request {s u : State} {r : Request} (h : s.Runs r.instr u) :
    ∃ rest, s.input = .call r :: rest ∧ u = { s with input := rest } := by
  generalize hi : r.instr = i at h
  cases h with
  | led => cases r <;> cases hi
  | dig => cases r <;> cases hi
  | byte b => exact absurd hi.symm (s.rxInstr_ne_request b r)
  | tick => cases r <;> cases hi
  | call r' rest hin =>
    have hr : r = r' := by cases r <;> cases r' <;> cases hi <;> rfl
    exact ⟨rest, hr ▸ hin, rfl⟩

end Sys2Proof.Machine
end

section
/-! What no step writes (R20, R29, R63). -/

namespace Sys2Proof.Machine

theorem State.effect_cfg (s : State) (i : Instr) : (s.effect i).cfg = s.cfg := by
  cases i <;> simp [State.effect, State.completeWith, State.replyAck, State.replyErr, State.doBtn, State.doDbtn,
    State.doPos]

/-- Settles O52: a move leaves `cfg` out, and so does every operation. -/
theorem configurationIsConstant : Obligations.ConfigurationIsConstant := by
  intro s t h
  obtain ⟨⟨_, _, _, _, _, rfl⟩, -, -, -⟩ | ⟨i, u, hruns, -, rfl⟩ := step_moves_or_runs h
  · rfl
  · obtain ⟨⟨_, _, _, _, _, rfl⟩, -, -, -⟩ := hruns.moves
    exact State.effect_cfg _ i

/-- The pending output state (R29). -/
def State.pending (s : State) : Byte × Byte × DisplayNum := (s.pendLedFtsw, s.pendLedExp, s.pendNum)

/-- Only the four requests of R290 to R293 write the pending output state. -/
theorem State.effect_pending (s : State) (i : Instr) :
    (s.effect i).pending = s.pending ∨ (∃ d k, i = .setLed d k ∨ i = .clearLed d k) ∨
      (∃ v, i = .setDisplayNumber v) ∨ i = .clearDisplayNumber := by
  cases i with
  | setLed d k => exact .inr (.inl ⟨d, k, .inl rfl⟩)
  | clearLed d k => exact .inr (.inl ⟨d, k, .inr rfl⟩)
  | setDisplayNumber v => exact .inr (.inr (.inl ⟨v, rfl⟩))
  | clearDisplayNumber => exact .inr (.inr (.inr rfl))
  | _ =>
    left
    simp [State.pending, State.effect, State.completeWith, State.replyAck, State.replyErr, State.doBtn,
      State.doDbtn, State.doPos]

/-- Settles O50: the four operations run only at the caller's request. -/
theorem pendingIsWrittenByTheCallerOnly : Obligations.PendingIsWrittenByTheCallerOnly := by
  intro s t h
  obtain ⟨⟨_, _, _, _, _, rfl⟩, -, -, -⟩ | ⟨i, u, hruns, -, rfl⟩ := step_moves_or_runs h
  · exact .inl ⟨rfl, rfl, rfl⟩
  · have hhead : ∀ r : Request, i = r.instr → s.input.head? = some (.call r) := by
      rintro r rfl
      obtain ⟨rest, hin, -⟩ := hruns.head_of_request
      rw [hin]
      rfl
    obtain hkept | ⟨d, k, hi | hi⟩ | ⟨v, hi⟩ | hi := u.effect_pending i
    · obtain ⟨⟨_, _, _, _, _, rfl⟩, -, -, -⟩ := hruns.moves
      simpa [State.pending] using Or.inl hkept
    · exact .inr (.inl ⟨d, k, .inl (hhead (.setLed d k) hi)⟩)
    · exact .inr (.inl ⟨d, k, .inr (hhead (.clearLed d k) hi)⟩)
    · exact .inr (.inr (.inl ⟨v, hhead (.setDisplayNumber v) hi⟩))
    · exact .inr (.inr (.inr (hhead .clearDisplayNumber hi)))

end Sys2Proof.Machine
end

section
/-! The calibration minimum (R257, R258): what each operation that writes the expression pedal's record does to it. -/

namespace Sys2Proof.Machine

@[simp] theorem State.setDev_posMin (s : State) (d : Device) (v : DevBase) :
    (s.setDev d v).exp.posMin = s.exp.posMin := by cases d <;> rfl
@[simp] theorem State.setDev_calValid (s : State) (d : Device) (v : DevBase) :
    (s.setDev d v).exp.calValid = s.exp.calValid := by cases d <;> rfl
@[simp] theorem State.applyEdge_posMin (s : State) (e : Edge) : (s.applyEdge e).exp.posMin = s.exp.posMin := by
  cases e <;> rfl
@[simp] theorem State.applyEdge_calValid (s : State) (e : Edge) :
    (s.applyEdge e).exp.calValid = s.exp.calValid := by cases e <;> rfl
@[simp] theorem State.btnDecode_posMin (s : State) (x : BitVec 16) : (s.btnDecode x).exp.posMin = s.exp.posMin := by
  unfold State.btnDecode; split <;> simp
@[simp] theorem State.btnDecode_calValid (s : State) (x : BitVec 16) :
    (s.btnDecode x).exp.calValid = s.exp.calValid := by unfold State.btnDecode; split <;> simp
@[simp] theorem State.txOk_posMin (s : State) : s.txOk.exp.posMin = s.exp.posMin := by
  unfold State.txOk State.devSuccess State.ackCache; split <;> simp
@[simp] theorem State.txOk_calValid (s : State) : s.txOk.exp.calValid = s.exp.calValid := by
  unfold State.txOk State.devSuccess State.ackCache; split <;> simp

/-- From `s` to `t` the minimum does not rise, if it is valid in both (R258). -/
def State.MinKept (s t : State) : Prop :=
  s.exp.calValid = true → t.exp.calValid = true → t.exp.posMin ≤ s.exp.posMin

theorem State.minKept_of_eq {s t : State} (h : t.exp.posMin = s.exp.posMin) : s.MinKept t :=
  fun _ _ => h ▸ BitVec.le_refl _

theorem State.minKept_of_zeroed {s t : State} (h : t.exp.calValid = false) : s.MinKept t :=
  fun _ ht => absurd (h.symm.trans ht) (by decide)

theorem State.minKept_devFail (s : State) (d : Device) : s.MinKept (s.devFail d) := by
  obtain ⟨-, h⟩ | ⟨-, h⟩ := s.devFail_cases d
  · exact State.minKept_of_eq (by simp [h])
  · cases d with
    | ftsw => exact State.minKept_of_eq (by simp [h, State.zeroDev])
    | exp => exact State.minKept_of_zeroed (by simp [h, State.zeroDev, ExpRec.zero])

theorem State.minKept_txFail (s : State) (cause : TxCause) : s.MinKept (s.txFail cause) :=
  State.minKept_devFail { s.raise (.txFailure cause s.tdev) with txp := .idle } s.tdev

theorem ExpRec.calibrate_posMin_le {r : ExpRec} (h : r.calValid = true) (raw : BitVec 14) :
    (ExpRec.calibrate r raw).posMin ≤ r.posMin := by
  simp only [ExpRec.calibrate, h, if_true]
  split <;> bv_omega

theorem State.minKept_posDecode (s : State) (raw : BitVec 14) : s.MinKept (s.posDecode raw) := by
  intro hs _
  simpa [State.posDecode] using ExpRec.calibrate_posMin_le hs raw

theorem State.minKept_devOnline (s : State) (d : Device) : s.MinKept (s.devOnline d) := by
  cases d with
  | ftsw => exact State.minKept_of_eq (by simp [State.devOnline, State.freshDev])
  | exp => exact State.minKept_of_zeroed (by simp [State.devOnline, State.freshDev, ExpRec.zero])

theorem State.minKept_doFrame (s : State) (k : Kind) : s.MinKept (s.doFrame k) := by
  cases k with
  | init =>
    simp only [State.doFrame, State.doInit]
    split
    · exact State.minKept_of_eq rfl
    · exact s.minKept_devOnline _
  | btn => exact State.minKept_of_eq (by simp [State.doFrame, State.doBtn])
  | pos => exact s.minKept_posDecode _
  | dbtn => exact State.minKept_of_eq (by simp [State.doFrame, State.doDbtn, State.dbtnDecode])

/-- `DISPATCH` does what a frame of some kind does, or nothing (R154, R159). -/
theorem State.dispatch_cases (s : State) : (∃ k, s.dispatch = s.doFrame k) ∨ s.dispatch = s := by
  cases hk : s.cfg.cmdKind s.fb[0] with
  | none => exact .inr (by simp only [State.dispatch, hk])
  | some k => exact .inl ⟨k, State.dispatch_of_cmdKind hk⟩

theorem State.minKept_frameComplete (s : State) : s.MinKept s.frameComplete := by
  have hdispatch : s.MinKept s.rearm.replyAck.dispatch := by
    obtain ⟨k, h⟩ | h := s.rearm.replyAck.dispatch_cases
    · rw [h]
      exact State.minKept_doFrame s.rearm.replyAck k
    · rw [h]
      exact State.minKept_of_eq rfl
  unfold State.frameComplete State.decodeFrame
  split
  · split
    · exact hdispatch
    · exact State.minKept_of_eq rfl
  · exact State.minKept_of_eq rfl

theorem State.minKept_phaseTick (s : State) : s.MinKept s.phaseTick := by
  unfold State.phaseTick
  split
  case h_1 => exact State.minKept_of_eq rfl
  case h_2 => dsimp only; split <;> exact State.minKept_of_eq rfl
  all_goals
    dsimp only
    split
    · exact State.minKept_txFail { s with tmr := s.tmr + 1 } _
    · exact State.minKept_of_eq rfl

theorem State.minKept_effect (s : State) (i : Instr) : s.MinKept (s.effect i) := by
  have hframe : ∀ k id pl, s.MinKept (s.effect (goodFrame k id pl)) := by
    intro k id pl
    rw [State.effect_goodFrame]
    exact State.minKept_doFrame (s.answered _ _) k
  cases i with
  | init id pl => exact hframe .init id pl
  | btn id pl => exact hframe .btn id pl
  | pos id pl => exact hframe .pos id pl
  | dbtn id pl => exact hframe .dbtn id pl
  | data b => exact State.minKept_frameComplete ((s.rxEvent b).append b)
  | echoMismatch b => exact State.minKept_txFail (s.rxEvent b) _
  | respError => exact State.minKept_txFail (s.rxEvent _) _
  | respOther b => exact State.minKept_txFail (s.rxEvent b) _
  | tick => exact State.minKept_phaseTick (s.emit .tick).quietTick
  | reset => exact State.minKept_of_zeroed rfl
  | _ => exact State.minKept_of_eq (by simp [State.effect, State.completeWith, State.replyAck, State.replyErr])

/-- Settles O49: only a position frame lowers the minimum, only a zeroing makes it invalid. -/
theorem calibrationMinimumNeverRises : Obligations.CalibrationMinimumNeverRises := by
  intro s t h
  obtain ⟨⟨_, _, _, _, _, rfl⟩, -, -, -⟩ | ⟨i, u, hruns, -, rfl⟩ := step_moves_or_runs h
  · exact State.minKept_of_eq rfl
  · obtain ⟨⟨_, _, _, _, _, hu⟩, -, -, -⟩ := hruns.moves
    have hexp : u.exp = s.exp := by rw [hu]
    rw [← hexp]
    exact u.minKept_effect i

end Sys2Proof.Machine
end

section
/-! Which operations send a byte (R9, R72, R74). -/

namespace Sys2Proof.Machine

theorem State.silent_of_eq {s t : State} (h : t.trace = s.trace) : s.Silent t := ⟨[], by simp [h], rfl⟩

theorem State.silent_emit (s : State) {item : TraceItem} (h : sentBytes [item] = []) : s.Silent (s.emit item) :=
  ⟨[item], rfl, h⟩

theorem State.silent_rxEvent (s : State) (b : Byte) : s.Silent (s.rxEvent b) := ⟨[.rx b], rfl, rfl⟩

theorem State.silent_push (s : State) (e : Event) : s.Silent (s.push e) := by
  obtain ⟨-, h⟩ | ⟨-, h⟩ := s.push_cases e
  · exact ⟨[.ev e], by rw [h], rfl⟩
  · exact ⟨[.drop e, .err (.queueOverflow e)], by rw [h], rfl⟩

theorem State.silent_btnDecode (s : State) (x : BitVec 16) : s.Silent (s.btnDecode x) := by
  unfold State.btnDecode
  split
  · exact .refl s
  · exact (State.silent_of_eq (by simp)).trans (State.silent_push _ _)

theorem State.silent_devOnline (s : State) (d : Device) : s.Silent (s.devOnline d) :=
  (State.silent_of_eq (by simp)).trans (State.silent_push (s.freshDev d) _)

theorem State.silent_doFrame (s : State) (k : Kind) : s.Silent (s.doFrame k) := by
  cases k with
  | init =>
    simp only [State.doFrame, State.doInit]
    split
    · exact .refl s
    · exact s.silent_devOnline _
  | btn => exact s.silent_btnDecode _
  | pos => exact State.silent_push { s with exp := _ } _
  | dbtn => exact ((s.silent_push _).trans (State.silent_btnDecode _ _)).trans (State.silent_btnDecode _ _)

theorem State.silent_dispatch (s : State) : s.Silent s.dispatch := by
  obtain ⟨k, h⟩ | h := s.dispatch_cases
  · rw [h]
    exact s.silent_doFrame k
  · rw [h]
    exact .refl s

theorem State.silent_devFail (s : State) (d : Device) : s.Silent (s.devFail d) := by
  obtain ⟨-, h⟩ | ⟨-, h⟩ := s.devFail_cases d
  · exact State.silent_of_eq (by simp [h])
  · exact h ▸ (State.silent_of_eq (by simp)).trans (State.silent_push (s.zeroDev d) _)

theorem State.silent_txFail (s : State) (cause : TxCause) : s.Silent (s.txFail cause) :=
  State.Silent.trans ⟨[.err (.txFailure cause s.tdev)], rfl, rfl⟩
    (State.silent_devFail { s.raise (.txFailure cause s.tdev) with txp := .idle } s.tdev)

theorem State.silent_phaseTick (s : State) : s.Silent s.phaseTick := by
  unfold State.phaseTick
  split
  case h_1 => exact .refl s
  case h_2 => dsimp only; split <;> exact State.silent_of_eq rfl
  all_goals
    dsimp only
    split
    · exact State.silent_txFail { s with tmr := s.tmr + 1 } _
    · exact State.silent_of_eq rfl

/-- The operations that may send a byte: a reply, a frame that is answered, a frame that is started, the next byte of
a frame in flight. -/
def Instr.maySend : Instr → Bool
  | .init _ _ | .btn _ _ | .pos _ _ | .dbtn _ _ | .badsum _ _ | .data _ | .replyAck | .replyErr => true
  | .led _ _ | .dig _ | .echoOk _ => true
  | _ => false

theorem State.silent_effect (s : State) {i : Instr} (h : Instr.maySend i = false) : s.Silent (s.effect i) := by
  cases i with
  | init | btn | pos | dbtn | badsum | data | replyAck | replyErr | led | dig | echoOk => cases h
  | unknownCmd b => exact ⟨[.rx b, .err (.unknownCommand b)], by simp [State.effect], rfl⟩
  | stray b => exact ⟨[.rx b, .err (.strayByte b)], by simp [State.effect], rfl⟩
  | cmdStart k => exact s.silent_rxEvent (s.cfg.cmd k)
  | rplEcho b => exact s.silent_rxEvent b
  | echoLast b => exact s.silent_rxEvent b
  | respAck => exact ⟨[.rx s.cfg.ack], by simp [State.effect], rfl⟩
  | echoMismatch b => exact (s.silent_rxEvent b).trans (State.silent_txFail _ _)
  | respError => exact (s.silent_rxEvent s.cfg.error).trans (State.silent_txFail _ _)
  | respOther b => exact (s.silent_rxEvent b).trans (State.silent_txFail _ _)
  | tick => exact State.Silent.trans ⟨[.tick], rfl, rfl⟩ (State.silent_phaseTick (s.emit .tick).quietTick)
  | setLed d k => exact ⟨[.call (.setLed d k)], by simp [State.effect], rfl⟩
  | clearLed d k => exact ⟨[.call (.clearLed d k)], by simp [State.effect], rfl⟩
  | setDisplayNumber v => exact ⟨[.call (.setDisplayNumber v)], rfl, rfl⟩
  | clearDisplayNumber => exact ⟨[.call .clearDisplayNumber], rfl, rfl⟩
  | poll => exact State.Silent.trans (s.silent_emit rfl) (State.pollBody_moves _).silent
  | reset => exact ⟨_, rfl, rfl⟩

theorem State.Silent.trace_isPrefix {s t : State} (h : s.Silent t) : s.trace <+: t.trace := by
  obtain ⟨new, ht, -⟩ := h
  exact ⟨new, ht.symm⟩

theorem State.answered_trace_isPrefix (s : State) (b reply : Byte) : s.trace <+: (s.answered b reply).trace := ⟨_, rfl⟩

theorem State.frameComplete_trace_isPrefix (s : State) : s.trace <+: s.frameComplete.trace := by
  have hack : s.trace <+: s.rearm.replyAck.trace := ⟨[.tx s.cfg.ack], rfl⟩
  unfold State.frameComplete State.decodeFrame
  split
  · split
    · exact hack.trans (State.silent_dispatch _).trace_isPrefix
    · exact ⟨[.tx s.cfg.error, .err .checksumError], by simp [State.replyErr]⟩
  · exact List.prefix_rfl

theorem State.txStart_trace_isPrefix (s : State) (d : Device) (v : TxVal) (body : List Byte) :
    s.trace <+: (s.txStart d v body).trace := by
  obtain ⟨-, h⟩ | ⟨-, h⟩ := s.txStart_cases d v body
  · rw [h]
    exact ⟨_, rfl⟩
  · rw [h]

/-- Every operation only extends the trace. -/
theorem State.effect_trace_isPrefix (s : State) (i : Instr) : s.trace <+: (s.effect i).trace := by
  have hframe : ∀ k id pl, s.trace <+: (s.effect (goodFrame k id pl)).trace := by
    intro k id pl
    rw [State.effect_goodFrame]
    exact (s.answered_trace_isPrefix _ _).trans (State.silent_doFrame _ k).trace_isPrefix
  cases i with
  | init id pl => exact hframe .init id pl
  | btn id pl => exact hframe .btn id pl
  | pos id pl => exact hframe .pos id pl
  | dbtn id pl => exact hframe .dbtn id pl
  | badsum k body =>
    rw [State.effect_badsum]
    exact (s.answered_trace_isPrefix _ _).trans (State.silent_emit _ rfl).trace_isPrefix
  | data b => exact (s.silent_rxEvent b).trace_isPrefix.trans (State.frameComplete_trace_isPrefix ((s.rxEvent b).append b))
  | replyAck => exact ⟨[.tx s.cfg.ack], rfl⟩
  | replyErr => exact ⟨[.tx s.cfg.error, .err .checksumError], by simp [State.effect, State.replyErr]⟩
  | led d m8 => exact s.txStart_trace_isPrefix _ _ _
  | dig v => exact s.txStart_trace_isPrefix _ _ _
  | echoOk b => exact ⟨[.rx b, .tx s.tb[s.tidx + 1]], by simp [State.effect]⟩
  | _ => exact (s.silent_effect rfl).trace_isPrefix

/-- While a wait is on, the one operation that may send is the matched echo of a byte that is not the last. -/
theorem State.Runs.silent_or_echoOk {s u : State} {i : Instr} (h : s.Runs i u) (hwait : s.txp ≠ .idle) :
    Instr.maySend i = false ∨ s.txp = .echo ∧ ∃ b rest, s.input = .rx b :: rest ∧
      u = { s with input := rest } ∧ i = .echoOk b := by
  cases h with
  | led _ _ hidle => exact absurd hidle hwait
  | dig _ hidle => exact absurd hidle hwait
  | tick => exact .inl rfl
  | call r => cases r <;> exact .inl rfl
  | byte b rest _ hin =>
    obtain ⟨-, hi⟩ | ⟨hecho, hi | hi | hi⟩ | ⟨-, hi | hi | hi⟩ | ⟨hidle, -⟩ := s.rxInstr_cases b
    case byte.inr.inl.inl => exact .inr ⟨hecho, b, rest, hin, rfl, hi⟩
    case byte.inr.inr.inr => exact absurd hidle hwait
    all_goals exact .inl (by rw [hi]; rfl)

/-- Settles O51: during a wait every operation is silent but `ECHO_OK`, whose trigger is the awaited echo. -/
theorem nothingIsSentDuringAWait : Obligations.NothingIsSentDuringAWait := by
  intro s t h
  obtain hmove | ⟨i, u, hruns, hsel, rfl⟩ := step_moves_or_runs h
  · obtain ⟨new, ht, hnew⟩ := hmove.silent
    exact ⟨new, ht, fun _ => .inl hnew⟩
  · by_cases hwait : s.txp = .idle
    · obtain ⟨new, hnew⟩ := hruns.moves.silent.trace_isPrefix.trans (u.effect_trace_isPrefix i)
      exact ⟨new, hnew.symm, fun hne => absurd hwait hne⟩
    · obtain hquiet | ⟨hecho, b, rest, hin, rfl, rfl⟩ := hruns.silent_or_echoOk hwait
      · obtain ⟨new, ht, hnew⟩ := hruns.moves.silent.trans (u.silent_effect hquiet)
        exact ⟨new, ht, fun _ => .inl hnew⟩
      · simp only [State.selects, Bool.and_eq_true, beq_iff_eq, decide_eq_true_eq] at hsel
        obtain ⟨⟨-, hmatch⟩, hnext⟩ := hsel
        have hidx : (s.tidx + 1).val = s.tidx.val + 1 := Fin.val_add_one_of_lt' (by have := s.tlen.isLt; omega)
        refine ⟨[.rx b, .tx s.tb[s.tidx + 1]], by simp [State.effect], fun _ => .inr ⟨hecho, ?_, rfl, hidx⟩⟩
        rw [hin, hmatch]
        rfl

end Sys2Proof.Machine
end

section
/-! What starts a refresh pass (R298), and what a partial frame holds up (R138, R397). -/

namespace Sys2Proof.Machine

theorem State.effect_pass (s : State) {i : Instr} (h : i ≠ .poll) : (s.effect i).pass = s.pass := by
  cases i with
  | poll => exact absurd rfl h
  | _ =>
    simp [State.effect, State.completeWith, State.replyAck, State.replyErr, State.doBtn, State.doDbtn, State.doPos]

theorem Request.eq_poll_of_instr {r : Request} (h : r.instr = .poll) : r = .poll := by
  cases r with
  | poll => rfl
  | _ => cases h

/-- A poll starts a pass at its first line, behind the gate, with no byte waiting (R300). -/
theorem State.pollBody_starts_pass {s : State} (hnone : s.pass = none) (h : s.pollBody.pass ≠ none) :
    s.pollBody.pass = some .ftswLed ∧ s.gate = true ∧ s.anyDirty = true ∧ s.byteWaiting = false := by
  obtain ⟨-, hbody⟩ | ⟨-, -, hbody⟩ | ⟨-, -, -, ⟨-, hwaiting, hbody⟩ | ⟨-, hbody⟩⟩ := s.pollBody_cases
  · simp [hbody, hnone] at h
  · simp [hbody, hnone] at h
  · obtain ⟨hgate, hdirty, hend⟩ | ⟨-, hend⟩ := s.startDrain.endDrain_cases
    · exact ⟨by rw [hbody, hend], hgate, hdirty, hwaiting⟩
    · simp [hbody, hend, hnone] at h
  · simp [hbody, hnone] at h

/-- Settles O60: a poll, the end of a drain and a gate test are the only steps that write `pass` while no pass runs. -/
theorem refreshPassNeedsTheGate : Obligations.RefreshPassNeedsTheGate := by
  intro s t h hnone hstarted
  have hopen : s.gate = true → s.mode = .run ∧ s.txp = .idle ∧ s.explen = 0 ∧ s.eq = [] ∧
      (s.cfg.quiesceMs = 0 ∨ s.quiet = s.cfg.quiesceMs) := s.gate_eq_true_iff.mp
  have hkeeps : ∀ {i u}, i ≠ .poll → u.pass = s.pass → exec i u ≠ .next t := by
    intro i u hi hu hx
    obtain rfl | ⟨-, rfl⟩ := exec_cases hx
    · exact hstarted (hu.trans hnone)
    · exact hstarted ((u.effect_pass hi).trans (hu.trans hnone))
  obtain ⟨i, l, -, hpass, -, -⟩ | ⟨-, hpass, -⟩ | ⟨-, hdrain, rfl⟩ | rfl | ⟨b, rest, -, -, -, hx⟩ |
    ⟨b, rest, -, -, rfl⟩ | ⟨rest, hin, rfl⟩ | ⟨rest, -, hx⟩ | ⟨r, rest, hin, hx⟩ := step_cases h
  · exact absurd hnone hpass
  · exact absurd hnone hpass
  · have hover : s.call = .draining ∧ s.byteWaiting = false := by
      simp only [State.drainOver, Bool.and_eq_true, beq_iff_eq, Bool.not_eq_true'] at hdrain
      exact ⟨hdrain.1.1, hdrain.2⟩
    obtain ⟨hgate, hdirty, hend⟩ | ⟨-, hend⟩ := s.endDrain_cases
    · obtain ⟨hmode, hidle, hframer, hqueue, hquiet⟩ := hopen hgate
      exact ⟨by rw [hend], hmode, hidle, hframer, hqueue, hquiet, hdirty, hover.2,
        fun rest b hcall => absurd hover.1 hcall⟩
    · simp [hend, hnone] at hstarted
  · exact absurd hnone hstarted
  · exact absurd hx (hkeeps (fun hi => s.rxInstr_ne_request b .poll hi) rfl)
  · exact absurd hnone hstarted
  · have hwaiting : s.byteWaiting = false := by simp [State.byteWaiting, hin]
    obtain ⟨-, -, -, hgate, hdirty, htest⟩ | ⟨-, htest⟩ := State.gateTest_cases { s with input := rest }
    · obtain ⟨hmode, hidle, hframer, hqueue, hquiet⟩ := hopen hgate
      exact ⟨by rw [htest], hmode, hidle, hframer, hqueue, hquiet, hdirty, hwaiting, by simp [hin]⟩
    · rw [htest] at hstarted
      exact absurd hnone hstarted
  · exact absurd hx (hkeeps nofun rfl)
  · by_cases hr : r = .poll
    · subst hr
      rw [Request.instr, exec_poll] at hx
      cases hx
      obtain ⟨hline, hgate, hdirty, hwaiting⟩ := State.pollBody_starts_pass
        (s := State.emit { s with input := rest } (.call .poll)) hnone hstarted
      obtain ⟨hmode, hidle, hframer, hqueue, hquiet⟩ := hopen hgate
      refine ⟨hline, hmode, hidle, hframer, hqueue, hquiet, hdirty, by simp [State.byteWaiting, hin], ?_⟩
      intro rest' b _ hin'
      obtain ⟨-, rfl⟩ := List.cons.inj (hin.symm.trans hin')
      exact absurd (show true = false from hwaiting) (by decide)
    · exact absurd hx (hkeeps (fun hi => hr (Request.eq_poll_of_instr hi)) rfl)

/-- Settles O53: the gate needs the framer Idle, and a tick writes neither framer field. -/
theorem partialFrameHoldsOutput : Obligations.PartialFrameHoldsOutput := by
  intro s t h hframe hnone
  refine ⟨?_, fun htick => ?_⟩
  · by_contra hstarted
    obtain ⟨-, -, -, hframer, -⟩ := refreshPassNeedsTheGate s t h hnone hstarted
    exact hframe hframer
  · obtain ⟨⟨_, _, _, _, _, rfl⟩, -, -, -⟩ | ⟨i, u, hruns, -, rfl⟩ := step_moves_or_runs h
    · exact ⟨rfl, rfl⟩
    · cases hruns with
      | led _ _ _ hpass => exact absurd hnone hpass
      | dig _ _ hpass => exact absurd hnone hpass
      | byte b rest _ hin => simp [hin] at htick
      | call r rest hin => simp [hin] at htick
      | tick rest hin => simp [State.effect]

end Sys2Proof.Machine
end

section
/-! Frames delivered byte by byte (R131, R133, R135, R150 to R152). -/

namespace Sys2Proof.Machine

/-- The state a command byte leaves: its frame is started, whatever the framer held (R131). -/
def State.commanded (s : State) (k : Kind) (rest : List Input) : State :=
  { s with
    input := rest
    fb := s.fb.set 0 (s.cfg.cmd k)
    plen := 1
    explen := s.cfg.len k
    quiet := 0
    trace := s.trace ++ [.rx (s.cfg.cmd k)] }

theorem State.commanded_partialFrame (s : State) (k : Kind) (rest : List Input) :
    (s.commanded k rest).partialFrame = [s.cfg.cmd k] := by
  obtain ⟨first, hfb⟩ : ∃ first, s.fb.toList = first :: s.fb.toList.tail :=
    ⟨_, (List.cons_head_tail (by simp [← List.length_eq_zero_iff])).symm⟩
  have hset : (s.fb.set 0 (s.cfg.cmd k)).toList = s.cfg.cmd k :: s.fb.toList.tail := by
    rw [Vector.toList_set, hfb]
    rfl
  exact congrArg (List.take 1) hset

theorem step_command {s : State} {rest : List Input} (k : Kind) (hvalid : s.cfg.Valid)
    (hin : s.input = .rx (s.cfg.cmd k) :: rest) (hmode : s.mode = .run) (hidle : s.txp = .idle)
    (hpass : s.pass = none) : step s = .next (s.commanded k rest) := by
  have hinstr : s.rxInstr (s.cfg.cmd k) = .cmdStart k := by
    rw [State.rxInstr_of_top hidle (hvalid.cmdTop k), decodeCommand_cmd hvalid]
  rw [step_rx (State.passReady_eq_false (.inl hpass)) hin hmode, hinstr]
  exact commandByteStartsFrame { s with input := rest } k hmode hidle

/-- Settles O54: `ACK` is INIT's command byte, and in `TX_IDLE` the framer reads it as one. -/
theorem lateAckStartsInitFrame : Obligations.LateAckStartsInitFrame := by
  intro s rest hvalid hin hmode hidle hpass
  exact step_command .init hvalid hin hmode hidle hpass

/-- `t` is `s` after the framer has taken `data` into a frame that is not complete yet. -/
structure State.Accumulated (s t : State) (data : List Byte) : Prop where
  cfg : t.cfg = s.cfg
  mode : t.mode = s.mode
  phase : t.txp = s.txp
  pass : t.pass = s.pass
  explen : t.explen = s.explen
  plen : t.plen.val = s.plen.val + data.length
  held : t.partialFrame = s.partialFrame ++ data
  ftsw : t.ftsw = s.ftsw
  exp : t.exp = s.exp
  queue : t.eq = s.eq
  trace : t.trace = s.trace ++ data.map TraceItem.rx

theorem State.partialFrame_append {s : State} {b : Byte} (hlt : s.plen.val < s.explen.val) :
    ((s.rxEvent b).append b).partialFrame = s.partialFrame ++ [b] := by
  have hmax := s.explen.isLt
  have hplen := State.plen_add_one_val hlt
  simp only [State.partialFrame, State.append_fb, State.append_plen, State.rxEvent_fb, State.rxEvent_plen, hplen,
    Vector.toList_setIfInBounds]
  rw [List.take_add_one, List.take_set_of_le (Nat.le_refl _)]
  simp [List.getElem?_set]
  omega

/-- A data byte that does not complete the frame is one step (R133). -/
theorem step_data {s : State} {b : Byte} {rest : List Input} (hin : s.input = .rx b :: rest) (hmode : s.mode = .run)
    (hidle : s.txp = .idle) (hpass : s.pass = none) (htop : top b = false) (hmore : s.plen.val + 1 < s.explen.val) :
    ∃ t, step s = .next t ∧ s.Accumulated t [b] ∧ t.input = rest := by
  have hstep := step_rx (State.passReady_eq_false (.inl hpass)) hin hmode
  rw [State.rxInstr_of_more hidle htop hmore,
    dataByteIsAppended { s with input := rest } b hmode hidle htop hmore] at hstep
  refine ⟨_, hstep, ?_, rfl⟩
  exact ⟨rfl, rfl, rfl, rfl, rfl, State.plen_add_one_val (s := s) (by omega),
    State.partialFrame_append (s := s) (by omega), rfl, rfl, rfl, rfl⟩

theorem State.Accumulated.trans {s t u : State} {xs ys : List Byte} (h : s.Accumulated t xs)
    (h' : t.Accumulated u ys) : s.Accumulated u (xs ++ ys) where
  cfg := h'.cfg.trans h.cfg
  mode := h'.mode.trans h.mode
  phase := h'.phase.trans h.phase
  pass := h'.pass.trans h.pass
  explen := h'.explen.trans h.explen
  plen := by rw [h'.plen, h.plen, List.length_append, Nat.add_assoc]
  held := by rw [h'.held, h.held, List.append_assoc]
  ftsw := h'.ftsw.trans h.ftsw
  exp := h'.exp.trans h.exp
  queue := h'.queue.trans h.queue
  trace := by rw [h'.trace, h.trace, List.map_append, List.append_assoc]

/-- Data bytes one after the other, as long as they do not complete the frame. -/
theorem run_data {s : State} (data : List Byte) {rest : List Input} (hin : s.input = data.map Input.rx ++ rest)
    (hmode : s.mode = .run) (hidle : s.txp = .idle) (hpass : s.pass = none) (htop : data.any top = false)
    (hmore : s.plen.val + data.length < s.explen.val) :
    ∃ t, Sys2Proof.core.run data.length s = .next t ∧ s.Accumulated t data ∧ t.input = rest := by
  induction data generalizing s with
  | nil =>
    refine ⟨s, rfl, ?_, hin⟩
    exact ⟨rfl, rfl, rfl, rfl, rfl, rfl, by simp, rfl, rfl, rfl, by simp⟩
  | cons b data ih =>
    simp only [List.any_cons, Bool.or_eq_false_iff] at htop
    simp only [List.length_cons] at hmore
    obtain ⟨t, hstep, hacc, hrest⟩ := step_data (s := s) (b := b) hin hmode hidle hpass htop.1 (by omega)
    obtain ⟨u, hrun, hacc', hrest'⟩ := ih (s := t) hrest (hacc.mode.trans hmode) (hacc.phase.trans hidle)
      (hacc.pass.trans hpass) htop.2 (by rw [hacc.plen, hacc.explen, List.length_singleton]; omega)
    exact ⟨u, (run_succ hstep _).trans hrun, hacc.trans hacc', hrest'⟩

theorem run_add {m : Nat} {s t : State} (h : Sys2Proof.core.run m s = .next t) (n : Nat) :
    Sys2Proof.core.run (m + n) s = Sys2Proof.core.run n t := by
  induction m generalizing s with
  | zero =>
    cases h
    rw [Nat.zero_add]
  | succ m ih =>
    obtain ⟨u, hstep⟩ := stepAlwaysGoesOn s
    rw [run_succ hstep] at h
    rw [Nat.succ_add, run_succ hstep, ih h]

/-- The data byte that completes a frame: the checksum decides between the two replies (R135, R150 to R154). -/
theorem step_lastData {s : State} {k : Kind} {id : Byte} {body : List Byte} {b : Byte} {rest : List Input}
    (hvalid : s.cfg.Valid) (hin : s.input = .rx b :: rest) (hmode : s.mode = .run) (hidle : s.txp = .idle)
    (hpass : s.pass = none) (hexplen : s.explen = s.cfg.len k) (hlast : s.plen.val + 1 = s.explen.val)
    (hheld : s.partialFrame = s.cfg.cmd k :: id :: body) (htop : (id :: (body ++ [b])).any top = false) :
    step s = .next (if xorAll (id :: (body ++ [b])) = 0
      then State.dispatch (State.answered { s with input := rest } b s.cfg.ack)
      else (State.answered { s with input := rest } b s.cfg.error).raise .checksumError) := by
  have htopb : top b = false := by
    simp only [List.any_cons, List.any_append, Bool.or_eq_false_iff] at htop
    exact htop.2.2.1
  have hframe : s.partialFrame ++ [b] = s.cfg.cmd k :: id :: (body ++ [b]) := by rw [hheld]; rfl
  have hlen : (body ++ [b]).length + 2 = (s.cfg.len k).val := by
    have hwhole := congrArg List.length hframe
    rw [List.length_append, State.partialFrame_length hlast, List.length_singleton, hlast, hexplen] at hwhole
    simpa using hwhole.symm
  have hdec : decode s.cfg .frame (s.partialFrame ++ [b]) = .ok _ :=
    hframe ▸ decodeFrame_cmd hvalid k id (by simp) hlen htop
  have hcks : cks (s.partialFrame ++ [b]) = xorAll (id :: (body ++ [b])) := by rw [hframe]; rfl
  rw [step_rx (State.passReady_eq_false (.inl hpass)) hin hmode, State.rxInstr_of_decodes hidle htopb hlast hdec,
    ← completingByteRunsTheFrame { s with input := rest } b _ hvalid hmode hidle htopb hlast hdec,
    exec_data (s := { s with input := rest }) hmode hidle htopb (show s.plen.val < s.explen.val by omega),
    State.frameComplete_of_last (s := { s with input := rest }) b hlast,
    State.decodeFrame_of_last (s := { s with input := rest }) b hlast]
  exact congrArg (fun x => Host.Outcome.next (if x = 0 then _ else _)) hcks

/-- The command byte and the data bytes but the last bring the framer to the end of its frame. -/
theorem run_toLastByte {s : State} {k : Kind} (first : List Byte) {rest : List Input} (hvalid : s.cfg.Valid)
    (hin : s.input = .rx (s.cfg.cmd k) :: (first.map Input.rx ++ rest)) (hmode : s.mode = .run) (hidle : s.txp = .idle)
    (hpass : s.pass = none) (htop : first.any top = false) (hlen : first.length + 2 = (s.cfg.len k).val) :
    ∃ t, Sys2Proof.core.run (first.length + 1) s = .next t ∧
      (s.commanded k (first.map Input.rx ++ rest)).Accumulated t first ∧ t.input = rest := by
  have hstart := step_command k hvalid hin hmode hidle hpass
  obtain ⟨t, hrun, hacc, hrest⟩ := run_data first (s := s.commanded k (first.map Input.rx ++ rest)) rfl hmode hidle
    hpass htop (show 1 + first.length < (s.cfg.len k).val by omega)
  exact ⟨t, (run_succ hstart _).trans hrun, hacc, hrest⟩

/-- A whole frame, delivered byte by byte (R131, R133, R135, R150 to R154). -/
theorem run_frame {s : State} {k : Kind} {id : Byte} {body : List Byte} {b : Byte} {rest : List Input}
    (hvalid : s.cfg.Valid) (hin : s.input = (s.cfg.cmd k :: id :: (body ++ [b])).map Input.rx ++ rest)
    (hmode : s.mode = .run) (hidle : s.txp = .idle) (hpass : s.pass = none)
    (htop : (id :: (body ++ [b])).any top = false) (hlen : body.length + 3 = (s.cfg.len k).val) :
    ∃ t : State, t.cfg = s.cfg ∧ t.ftsw = s.ftsw ∧ t.exp = s.exp ∧ t.eq = s.eq ∧
      t.trace = s.trace ++ (s.cfg.cmd k :: id :: body).map TraceItem.rx ∧
      (∀ reply, (State.answered { t with input := rest } b reply).fb.toList.take (s.cfg.len k).val =
        s.cfg.cmd k :: id :: (body ++ [b])) ∧
      step t = .next (if xorAll (id :: (body ++ [b])) = 0
        then State.dispatch (State.answered { t with input := rest } b t.cfg.ack)
        else (State.answered { t with input := rest } b t.cfg.error).raise .checksumError) ∧
      ∀ u : State, step t = .next u → Sys2Proof.core.run (s.cfg.len k).val s = .next u := by
  have htopFirst : (id :: body).any top = false := by
    simp only [List.any_cons, List.any_append, Bool.or_eq_false_iff] at htop ⊢
    exact ⟨htop.1, htop.2.1⟩
  obtain ⟨t, hrun, hacc, hrest⟩ := run_toLastByte (id :: body) (rest := .rx b :: rest) hvalid (by simpa using hin)
    hmode hidle hpass htopFirst (by simpa using hlen)
  have hcfg : t.cfg = s.cfg := hacc.cfg
  have hexplen : t.explen = s.cfg.len k := hacc.explen
  have hlast : t.plen.val + 1 = t.explen.val := by
    have hplen : t.plen.val = 1 + (body.length + 1) := hacc.plen
    rw [hexplen]
    omega
  have hheld : t.partialFrame = s.cfg.cmd k :: id :: body := by
    rw [hacc.held, State.commanded_partialFrame]
    rfl
  have hstep := step_lastData (hcfg.symm ▸ hvalid) hrest (hacc.mode.trans hmode) (hacc.phase.trans hidle)
    (hacc.pass.trans hpass) (hcfg.symm ▸ hexplen) hlast (hcfg.symm ▸ hheld) htop
  refine ⟨t, hcfg, hacc.ftsw, hacc.exp, hacc.queue, ?_, fun reply => ?_, hstep, fun u hu => ?_⟩
  · rw [hacc.trace]
    simp [State.commanded]
  · have hstored := State.completeWith_fb_take b hlast
    rw [hheld, hexplen] at hstored
    exact hstored
  · rw [← hlen]
    exact (run_add hrun 1).trans (run_succ hu 0)

/-- Settles O55: the last byte is answered by its checksum, and what is dispatched after an `ACK` sends nothing. -/
theorem deliveredFrameGetsOneReply : Obligations.DeliveredFrameGetsOneReply := by
  intro s k data rest hvalid hmode hidle hpass htop hlen
  have hlow := hvalid.lenLow k
  obtain ⟨id, body, b, rfl⟩ : ∃ id body b, data = id :: (body ++ [b]) := by
    obtain _ | ⟨id, tail⟩ := data
    · simp at hlen
      omega
    · have hne : tail ≠ [] := by
        rintro rfl
        simp at hlen
        omega
      exact ⟨id, _, _, congrArg _ (List.dropLast_append_getLast hne).symm⟩
  obtain ⟨t, hcfg, hftsw, hexp, hqueue, htrace, hfull, hstep, hrun⟩ := run_frame
    (s := { s with input := (s.cfg.cmd k :: id :: (body ++ [b])).map Input.rx ++ rest }) hvalid rfl hmode hidle hpass
    ((all_not_top_iff _).mp htop) (by simpa using hlen)
  by_cases hsum : xorAll (id :: (body ++ [b])) = 0
  · rw [if_pos hsum] at hstep
    obtain ⟨new, hnew, hsilent⟩ := State.silent_dispatch (State.answered { t with input := rest } b t.cfg.ack)
    refine ⟨_, new, hrun _ hstep, ?_, ?_, ?_, ?_, ?_, ?_, hsilent, fun hbad => absurd hsum hbad⟩
    · rw [State.dispatch_input]; rfl
    · rw [State.dispatch_plen]; rfl
    · rw [State.dispatch_explen]; rfl
    · rw [State.dispatch_txp]; rfl
    · rw [State.dispatch_fb]; exact hfull t.cfg.ack
    · rw [hnew, if_pos hsum]
      simp [State.answered, htrace, hcfg]
  · rw [if_neg hsum] at hstep
    refine ⟨_, [.err .checksumError], hrun _ hstep, rfl, rfl, rfl, rfl, hfull t.cfg.error, ?_, rfl,
      fun _ => ⟨rfl, hftsw, hexp, hqueue⟩⟩
    rw [if_neg hsum]
    simp [State.answered, htrace, hcfg]

end Sys2Proof.Machine
end

section
/-! Sound states (R38): construction, and what each shared operation needs to keep them. -/

namespace Sys2Proof.Machine

/-- Settles O39: every field but the pending ones, `input`, `call` and `pass` is written. -/
theorem resetClearsAllButPending : Obligations.ResetClearsAllButPending :=
  fun _ => exec_of_selects (i := .reset) rfl

theorem State.construct_inv {c : Config} (h : c.Valid) : (State.construct c).Inv where
  config := h
  framer := .inl ⟨rfl, rfl⟩
  flight := by constructor <;> simp [State.construct]
  devices := by
    have hzero : ∀ d, (State.construct c).dev d = DevBase.zero := by intro d; cases d <;> rfl
    exact ⟨fun d => by rw [hzero]; exact h.thresholdPos, fun d _ => hzero d, fun _ => ⟨rfl, rfl⟩, nofun⟩
  queue := Nat.zero_le _
  quiet := Nat.le_refl _
  mode := rfl
  pass := fun hne => absurd rfl hne

/-- Settles O46: nothing is in flight, no frame is in progress, and every record is zero. -/
theorem constructionIsSound : Obligations.ConstructionIsSound :=
  ⟨fun _ => State.construct_inv, State.construct_inv Sys2Proof.Tests.ref_valid⟩

end Sys2Proof.Machine
end

section
/-! The invariant (R38) is kept by each shared operation, under the condition the operation is used in. -/

namespace Sys2Proof.Machine

/-- A move keeps the invariant: the queue only gets shorter, and a pass begins with the framer Idle. -/
theorem State.Inv.of_moves {s t : State} (h : s.Inv) (hm : s.Moves t) : t.Inv := by
  obtain ⟨⟨input, eq, trace, call, pass, rfl⟩, hqueue, -, hpass⟩ := hm
  exact { h with
    flight := { h.flight with }
    devices := { h.devices with }
    queue := hqueue.length_le.trans h.queue
    pass := fun hne => (hpass hne).elim h.pass id }

theorem State.Inv.emit {s : State} (h : s.Inv) (item : TraceItem) : (s.emit item).Inv :=
  { h with flight := { h.flight with }, devices := { h.devices with } }

theorem State.Inv.rxEvent {s : State} (h : s.Inv) (b : Byte) : (s.rxEvent b).Inv :=
  { h with flight := { h.flight with }, devices := { h.devices with }, quiet := Nat.zero_le _ }

theorem State.Inv.setPendLed {s : State} (h : s.Inv) (d : Device) (v : Byte) : (s.setPendLed d v).Inv := by
  cases d <;> exact { h with flight := { h.flight with }, devices := { h.devices with } }

theorem State.Inv.setPendNum {s : State} (h : s.Inv) (v : DisplayNum) : State.Inv { s with pendNum := v } :=
  { h with flight := { h.flight with }, devices := { h.devices with } }

theorem State.Inv.push {s : State} (h : s.Inv) (e : Event) : (s.push e).Inv := by
  obtain ⟨hroom, hpush⟩ | ⟨-, hpush⟩ := s.push_cases e
  · rw [hpush]
    exact { h with
      flight := { h.flight with }
      devices := { h.devices with }
      queue := by simpa using hroom }
  · rw [hpush]
    exact { h with flight := { h.flight with }, devices := { h.devices with } }

/-- The end of any wait: nothing is in flight, and the timer is free. -/
theorem State.Inv.toIdle {s : State} (h : s.Inv) (n : Nat) : State.Inv { s with txp := .idle, tmr := n } :=
  { h with
    flight := by constructor <;> simp
    devices := { h.devices with } }

/-- Writing the common fields of a pedal that stays present. -/
theorem State.Inv.setDev {s : State} (h : s.Inv) (d : Device) {v : DevBase} (hpresent : v.present = true)
    (hcounter : v.errCnt < s.cfg.errThreshold) : (s.setDev d v).Inv := by
  have hdev : ∀ e, (s.setDev d v).dev e = v ∨ (s.setDev d v).dev e = s.dev e := by
    intro e
    by_cases he : e = d
    · exact .inl (he ▸ s.setDev_dev_self d v)
    · exact .inr (s.setDev_dev_other d e v he)
  have hflight : (s.setDev d v).FlightSound := by
    refine ⟨fun hp => ?_, ?_, ?_, ?_, ?_, ?_⟩
    · obtain he | he := hdev (s.setDev d v).tdev
      · rw [he, hpresent]
      · rw [he, State.setDev_tdev]
        exact h.flight.target (by simpa using hp)
    · simpa using h.flight.length
    · simpa [State.tkind] using h.flight.number
    · simpa using h.flight.waitEcho
    · simpa using h.flight.waitAck
    · simpa using h.flight.framer
  have hdevices : (s.setDev d v).DevicesSound := by
    refine ⟨fun e => ?_, fun e hp => ?_, fun hp => ?_, ?_⟩
    · obtain he | he := hdev e
      · simpa [he] using hcounter
      · simpa [he] using h.devices.counter e
    · obtain he | he := hdev e
      · rw [he, hpresent] at hp
        cases hp
      · rw [he] at hp ⊢
        exact h.devices.absent e hp
    · cases d with
      | ftsw => cases hpresent.symm.trans hp
      | exp => exact h.devices.absentNum hp
    · cases d <;> exact h.devices.calibrated
  cases d <;> exact { h with flight := hflight, devices := hdevices }

theorem State.Inv.zeroDev {s : State} (h : s.Inv) (d : Device) (hidle : s.txp = .idle) : (s.zeroDev d).Inv := by
  have hdev : ∀ e, (s.zeroDev d).dev e = DevBase.zero ∨ (s.zeroDev d).dev e = s.dev e := by
    intro e
    by_cases he : e = d
    · exact .inl (he ▸ s.zeroDev_dev_self d)
    · exact .inr (s.zeroDev_dev_other d e he)
  have hflight : (s.zeroDev d).FlightSound := by constructor <;> simp [hidle]
  have hdevices : (s.zeroDev d).DevicesSound := by
    refine ⟨fun e => ?_, fun e hp => ?_, fun hp => ?_, fun hcal => ?_⟩
    · obtain he | he := hdev e
      · rw [he, State.zeroDev_cfg]
        exact h.config.thresholdPos
      · simpa [he] using h.devices.counter e
    · obtain he | he := hdev e
      · exact he
      · rw [he] at hp ⊢
        exact h.devices.absent e hp
    · cases d with
      | ftsw => exact ⟨rfl, rfl⟩
      | exp => exact h.devices.absentNum hp
    · cases d with
      | ftsw => exact h.devices.calibrated hcal
      | exp => cases hcal
  cases d <;> exact { h with flight := hflight, devices := hdevices }

/-- A failure charged to a present pedal, after its frame has been given up (R222, R223). -/
theorem State.Inv.devFail {s : State} (h : s.Inv) {d : Device} (hidle : s.txp = .idle)
    (hpresent : (s.dev d).present = true) : (s.devFail d).Inv := by
  obtain ⟨hbelow, heq⟩ | ⟨-, heq⟩ := s.devFail_cases d
  · rw [heq]
    exact h.setDev d hpresent hbelow
  · rw [heq]
    exact (h.zeroDev d hidle).push _

/-- A failure of the frame in flight, wherever its timer stands (R191). -/
theorem State.Inv.txFail {s : State} (h : s.Inv) (cause : TxCause) (n : Nat)
    (hflight : s.txp = .echo ∨ s.txp = .ackw) : (State.txFail { s with tmr := n } cause).Inv :=
  ((h.emit (.err (.txFailure cause s.tdev))).toIdle n).devFail rfl (h.flight.target hflight)

/-- `TX_OK` for the frame in flight: a digit frame is always FTSW's (R296). -/
theorem State.Inv.txOk {s : State} (h : s.Inv) (hackw : s.txp = .ackw) : s.txOk.Inv := by
  have hpresent := h.flight.target (.inr hackw)
  have hpos : 0 < s.cfg.errThreshold := h.config.thresholdPos
  cases hval : s.tval with
  | led m8 =>
    rw [State.txOk_of_led hval]
    exact (h.toIdle s.tmr).setDev s.tdev hpresent hpos
  | num v =>
    have hdev : s.tdev = .ftsw := h.flight.number (.inr hackw) (by simp [State.tkind, hval])
    rw [State.txOk_of_num hval hdev]
    have hsuccess : (State.devSuccess { s with txp := .idle } .ftsw).Inv :=
      (h.toIdle s.tmr).setDev .ftsw (hdev ▸ hpresent) hpos
    have hftsw : s.ftsw.base.present = true := by
      rw [hdev] at hpresent
      exact hpresent
    exact { hsuccess with
      flight := by constructor <;> simp
      devices := { hsuccess.devices with absentNum := fun hp => by cases hftsw.symm.trans hp } }

theorem State.Inv.devOnline {s : State} (h : s.Inv) (d : Device) : (s.devOnline d).Inv := by
  refine State.Inv.push (s := s.freshDev d) ?_ _
  have hset := h.setDev d (v := { DevBase.zero with present := true, ledStale := true }) rfl h.config.thresholdPos
  cases d with
  | ftsw => exact { hset with
      flight := { hset.flight with }
      devices := { hset.devices with absentNum := nofun } }
  | exp => exact { hset with
      flight := { hset.flight with }
      devices := { hset.devices with calibrated := nofun } }

theorem State.Inv.applyEdge {s : State} (h : s.Inv) (e : Edge) : (s.applyEdge e).Inv := by
  cases e <;> exact { h with flight := { h.flight with }, devices := { h.devices with } }

theorem State.Inv.btnDecode {s : State} (h : s.Inv) (x : BitVec 16) : (s.btnDecode x).Inv := by
  unfold State.btnDecode
  split
  · exact h
  · exact (h.applyEdge _).push _

/-- After a reading the pair is ordered and the reported position lies inside it (R257). -/
theorem ExpRec.calibrate_ordered {r : ExpRec} (h : r.calValid = true → r.posMin ≤ r.posMax) (raw : BitVec 14) :
    (ExpRec.calibrate r raw).posMin ≤ (ExpRec.calibrate r raw).posMax ∧
      raw - (ExpRec.calibrate r raw).posMin ≤
        (ExpRec.calibrate r raw).posMax - (ExpRec.calibrate r raw).posMin := by
  rw [ExpRec.calibrate_eq]
  cases hcal : r.calValid with
  | false => simp
  | true =>
    have := h hcal
    simp only [true_and]
    split <;> split <;> constructor <;> bv_omega

theorem State.Inv.posDecode {s : State} (h : s.Inv) (raw : BitVec 14) : (s.posDecode raw).Inv := by
  have hbase : (ExpRec.calibrate s.exp raw).base = s.exp.base := by
    unfold ExpRec.calibrate
    split <;> rfl
  have hdev : ∀ d, State.dev { s with exp := { ExpRec.calibrate s.exp raw with
      pos := raw - (ExpRec.calibrate s.exp raw).posMin } } d = s.dev d := by
    intro d
    cases d
    · rfl
    · exact hbase
  refine State.Inv.push (s := { s with exp := _ }) ?_ _
  exact { h with
    flight := { h.flight with target := fun hp => by rw [hdev]; exact h.flight.target hp }
    devices := { h.devices with
      counter := fun d => by rw [hdev]; exact h.devices.counter d
      absent := fun d hp => by
        rw [hdev] at hp ⊢
        exact h.devices.absent d hp
      calibrated := fun _ => ExpRec.calibrate_ordered (fun hcal => (h.devices.calibrated hcal).1) raw } }

theorem State.Inv.doFrame {s : State} (h : s.Inv) (k : Kind) : (s.doFrame k).Inv := by
  cases k with
  | init =>
    simp only [State.doFrame, State.doInit]
    split
    · exact h
    · exact h.devOnline _
  | btn => exact h.btnDecode _
  | pos => exact h.posDecode _
  | dbtn => exact ((h.push _).btnDecode _).btnDecode _

/-- A frame stored, re-armed and answered: the reply's echo is awaited, with the framer Idle (R135, R151). -/
theorem State.Inv.answered {s : State} (h : s.Inv) (b reply : Byte) : (s.answered b reply).Inv :=
  { h with
    framer := .inl ⟨rfl, rfl⟩
    flight := by constructor <;> simp [State.answered]; exact h.config.tEchoPos
    devices := { h.devices with }
    quiet := Nat.zero_le _
    pass := fun _ => rfl }

theorem State.Inv.commanded {s : State} (h : s.Inv) (hidle : s.txp = .idle) (hpass : s.pass = none) (k : Kind)
    (rest : List Input) : (s.commanded k rest).Inv :=
  { h with
    framer := by
      have hlow := h.config.lenLow k
      refine .inr ⟨k, rfl, Nat.le_refl 1, show 1 < (s.cfg.len k).val by omega, by simp [State.commanded], ?_⟩
      intro j hj hlt
      exact absurd (show j.val < 1 from hlt) (by omega)
    flight := by constructor <;> simp [State.commanded, hidle]
    devices := { h.devices with }
    quiet := Nat.zero_le _
    pass := fun hne => absurd hpass hne }

/-- A data byte that does not complete the frame (R133). -/
theorem State.Inv.append {s : State} (h : s.Inv) {b : Byte} (htop : top b = false)
    (hmore : s.plen.val + 1 < s.explen.val) : (s.append b).Inv := by
  have hplen := State.plen_add_one_val (s := s) (by omega)
  have hframer : (s.append b).FramerSound := by
    obtain ⟨hzero, -⟩ | ⟨k, hexplen, hone, -, hcmd, hdata⟩ := h.framer
    · simp [hzero] at hmore
    · refine .inr ⟨k, hexplen, ?_, ?_, ?_, fun j hj hlt => ?_⟩
      · rw [State.append_plen, hplen]
        omega
      · rw [State.append_plen, hplen]
        exact hmore
      · have hne : s.plen.val ≠ 0 := by omega
        simpa [hne] using hcmd
      · rw [State.append_plen, hplen] at hlt
        by_cases hj' : j.val = s.plen.val
        · simpa [← hj'] using htop
        · simpa [Ne.symm hj'] using hdata j hj (by omega)
  exact { h with framer := hframer, flight := { h.flight with }, devices := { h.devices with } }

theorem State.Inv.rearm {s : State} (h : s.Inv) : s.rearm.Inv :=
  { h with
    framer := .inl ⟨rfl, rfl⟩
    flight := { h.flight with framer := fun _ => rfl }
    devices := { h.devices with }
    pass := fun _ => rfl }

theorem State.Inv.txStart {s : State} (h : s.Inv) {d : Device} {v : TxVal} {body : List Byte}
    (hnum : ∀ n, v = .num n → d = .ftsw) : (s.txStart d v body).Inv := by
  obtain ⟨hok, hstart⟩ | ⟨-, hstart⟩ := s.txStart_cases d v body
  · simp only [State.txStartOk, State.framerIdle, Bool.and_eq_true, beq_iff_eq, decide_eq_true_eq] at hok
    obtain ⟨⟨⟨⟨⟨-, -⟩, hframer⟩, hpresent⟩, hmin⟩, hmax⟩ := hok
    have hlen : (Fin.ofNat 10 (body.length + 1)).val = body.length + 1 := Nat.mod_eq_of_lt (by omega)
    rw [hstart]
    exact { h with
      flight := {
        target := fun _ => hpresent
        length := fun _ => by
          dsimp only
          rw [hlen]
          exact ⟨by omega, by simp⟩
        number := fun _ hk => by
          cases v with
          | led m8 => cases hk
          | num n => exact hnum n rfl
        waitEcho := fun _ => h.config.tEchoPos
        waitAck := nofun
        framer := fun _ => hframer }
      devices := { h.devices with } }
  · rwa [hstart]

/-- The next byte of the frame in flight goes out (R182). -/
theorem State.Inv.nextByte {s : State} (h : s.Inv) (hnext : s.tidx.val + 1 < s.tlen.val) (item : TraceItem) :
    State.Inv { s with tidx := s.tidx + 1, trace := s.trace ++ [item], tmr := 0 } :=
  { h with
    flight := { h.flight with
      length := fun hp => by
        have hidx : (s.tidx + 1).val = s.tidx.val + 1 := Fin.val_add_one_of_lt' (by have := s.tlen.isLt; omega)
        exact ⟨(h.flight.length hp).1, hidx ▸ hnext⟩
      waitEcho := fun _ => h.config.tEchoPos
      waitAck := fun _ => h.config.tAckPos }
    devices := { h.devices with } }

/-- The last echo has arrived: the response is awaited (R185). -/
theorem State.Inv.awaitResponse {s : State} (h : s.Inv) (hecho : s.txp = .echo) :
    State.Inv { s with txp := .ackw, tmr := 0 } :=
  { h with
    flight := {
      target := fun _ => h.flight.target (.inl hecho)
      length := fun _ => h.flight.length (.inl hecho)
      number := fun _ => h.flight.number (.inl hecho)
      waitEcho := by simp
      waitAck := fun _ => h.config.tAckPos
      framer := fun _ => h.flight.framer (by simp [hecho]) }
    devices := { h.devices with } }

theorem State.Inv.quietTick {s : State} (h : s.Inv) : s.quietTick.Inv :=
  { h with
    flight := { h.flight with }
    devices := { h.devices with }
    quiet := by
      have := h.quiet
      simp only [State.quietTick]
      split <;> omega }

/-- A wait goes on: the timer stays below the bound of its phase (R192). -/
theorem State.Inv.tickOn {s : State} (h : s.Inv) (hbefore : s.tmr + 1 ≠ s.waitBound) :
    State.Inv { s with tmr := s.tmr + 1 } :=
  { h with
    flight := { h.flight with
      waitEcho := fun (hp : s.txp = .echo ∨ s.txp = .rpl) => by
        have hlt := h.flight.waitEcho hp
        have hbound : s.waitBound = s.cfg.tEcho := by obtain hp | hp := hp <;> simp [State.waitBound, hp]
        dsimp only
        omega
      waitAck := fun (hp : s.txp = .ackw) => by
        have hlt := h.flight.waitAck hp
        have hbound : s.waitBound = s.cfg.tAck := by simp [State.waitBound, hp]
        dsimp only
        omega }
    devices := { h.devices with } }

theorem State.Inv.phaseTick {s : State} (h : s.Inv) : s.phaseTick.Inv := by
  by_cases hwait : s.txp = .idle
  · rwa [State.phaseTick_of_idle hwait]
  · by_cases hbound : s.tmr + 1 = s.waitBound
    · cases hphase : s.txp with
      | idle => exact absurd hphase hwait
      | rpl =>
        rw [State.phaseTick_of_rpl_bound hphase (by simpa [State.waitBound, hphase] using hbound)]
        exact h.toIdle _
      | echo =>
        rw [State.phaseTick_of_echo_bound hphase (by simpa [State.waitBound, hphase] using hbound)]
        exact h.txFail _ _ (.inl hphase)
      | ackw =>
        rw [State.phaseTick_of_ackw_bound hphase (by simpa [State.waitBound, hphase] using hbound)]
        exact h.txFail _ _ (.inr hphase)
    · rw [State.phaseTick_of_ne hwait hbound]
      exact h.tickOn hbound

end Sys2Proof.Machine
end

section
/-! The byte that completes a frame in a sound state (R38(a)): what `FB` holds then is always a frame of the table. -/

namespace Sys2Proof.Machine

/-- A sound framer that is Accumulating holds a command byte and data bytes (R24, R91). -/
theorem State.FramerSound.partialFrame {s : State} (h : s.FramerSound) (hframe : s.explen ≠ 0) :
    ∃ k pl, s.explen = s.cfg.len k ∧ s.partialFrame = s.cfg.cmd k :: pl ∧ pl.any top = false := by
  obtain ⟨hzero, -⟩ | ⟨k, hexplen, hone, hlt, hcmd, hdata⟩ := h
  · exact absurd hzero hframe
  · have hmax := s.explen.isLt
    have hlen : s.partialFrame.length = s.plen.val := by
      simp only [State.partialFrame, List.length_take, Vector.length_toList]
      omega
    have hget : ∀ i (hi : i < s.partialFrame.length), s.partialFrame[i] = s.fb[i]'(by omega) := by
      intro i hi
      simp [State.partialFrame]
    refine ⟨k, s.partialFrame.tail, hexplen, ?_, ?_⟩
    · have hne : s.partialFrame ≠ [] := List.ne_nil_of_length_pos (by omega)
      rw [← hcmd, ← hget 0 (by omega), ← List.head_eq_getElem hne, List.cons_head_tail]
    · rw [List.any_eq_false]
      intro b hb
      obtain ⟨i, hi, rfl⟩ := List.mem_iff_getElem.mp hb
      rw [List.length_tail] at hi
      have hsound := hdata ⟨i + 1, by omega⟩ (by simp) (by dsimp only; omega)
      rw [List.getElem_tail, hget (i + 1) (by omega)]
      simpa using hsound

/-- The completing byte of a sound state decodes: the rejections of log entry 16 do not happen. -/
theorem State.Inv.decodes_last {s : State} (h : s.Inv) {b : Byte} (htop : top b = false)
    (hlast : s.plen.val + 1 = s.explen.val) : ∃ i, decode s.cfg .frame (s.partialFrame ++ [b]) = .ok i := by
  have hframe : s.explen ≠ 0 := fun hzero => by simp [hzero] at hlast
  obtain ⟨k, pl, hexplen, hheld, hdata⟩ := h.framer.partialFrame hframe
  have hlow := h.config.lenLow k
  have hlen := State.partialFrame_length hlast
  rw [hheld, List.length_cons] at hlen
  rw [hexplen] at hlast
  obtain ⟨id, body, rfl⟩ : ∃ id body, pl = id :: body := by
    cases pl with
    | nil => simp at hlen; omega
    | cons id body => exact ⟨id, body, rfl⟩
  rw [hheld]
  refine ⟨_, decodeFrame_cmd h.config k id (rest := body ++ [b]) (by simp) ?_ ?_⟩
  · simp only [List.length_cons, List.length_append, List.length_nil] at hlen ⊢
    omega
  · simpa [htop] using hdata

/-- In a sound state the framer reads a byte as the append of R133 only when it completes nothing. -/
theorem State.Inv.rxInstr_data {s : State} (h : s.Inv) {b : Byte} (hidle : s.txp = .idle)
    (hinstr : s.rxInstr b = .data b) : top b = false ∧ s.plen.val + 1 < s.explen.val := by
  cases htop : top b with
  | true =>
    rw [State.rxInstr_of_top hidle htop] at hinstr
    exact absurd hinstr (decodeCommand_ne_data _ b)
  | false =>
    refine ⟨rfl, ?_⟩
    by_cases hlt : s.plen.val < s.explen.val
    · by_cases hlast : s.plen.val + 1 = s.explen.val
      · obtain ⟨i, hdec⟩ := h.decodes_last htop hlast
        rw [State.rxInstr_of_decodes hidle htop hlast hdec] at hinstr
        subst hinstr
        obtain ⟨k, id, pl, hi⟩ | ⟨k, body, hi⟩ := decodeFrame_cases hdec
        · cases k <;> cases hi
        · cases hi
      · omega
    · rw [State.rxInstr_of_stray hidle htop hlt] at hinstr
      cases hinstr

end Sys2Proof.Machine
end

section
/-! Every step keeps the invariant (R38). -/

namespace Sys2Proof.Machine

theorem State.Inv.effect_request {s : State} (h : s.Inv) (r : Request) : (s.effect r.instr).Inv := by
  cases r with
  | setLed d k => exact (h.emit _).setPendLed d _
  | clearLed d k => exact (h.emit _).setPendLed d _
  | setDisplayNumber v => exact (h.emit _).setPendNum _
  | clearDisplayNumber => exact (h.emit _).setPendNum _
  | poll => exact (h.emit _).of_moves (State.pollBody_moves _)
  | reset =>
    have hzero := State.construct_inv h.config
    exact { hzero with
      flight := { hzero.flight with }
      devices := { hzero.devices with }
      pass := fun _ => rfl }

theorem State.Inv.effect_byte {s : State} (h : s.Inv) (hready : s.passReady = false) (b : Byte)
    (hsel : s.selects (s.rxInstr b) = true) : (s.effect (s.rxInstr b)).Inv := by
  obtain ⟨-, hi⟩ | ⟨hecho, hi | hi | hi⟩ | ⟨hackw, hi | hi | hi⟩ |
    ⟨hidle, ⟨k, id, pl, hi⟩ | ⟨k, body, hi⟩ | ⟨k, hi⟩ | hi | hi | hi⟩ := s.rxInstr_cases b
  all_goals rw [hi]
  · exact (h.rxEvent b).toIdle s.tmr
  · rw [hi] at hsel
    simp only [State.selects, Bool.and_eq_true, decide_eq_true_eq] at hsel
    exact (h.rxEvent b).nextByte hsel.2 _
  · exact (h.rxEvent b).awaitResponse hecho
  · exact (h.rxEvent b).txFail _ s.tmr (.inl hecho)
  · exact (h.rxEvent _).txOk hackw
  · exact (h.rxEvent _).txFail _ s.tmr (.inr hackw)
  · exact (h.rxEvent b).txFail _ s.tmr (.inr hackw)
  · rw [State.effect_goodFrame]
    exact (h.answered _ _).doFrame k
  · rw [State.effect_badsum]
    exact (h.answered _ _).emit _
  · have hpass : s.pass = none := by simpa [State.passReady, State.txIdle, hidle] using hready
    exact h.commanded hidle hpass k s.input
  · exact (h.rxEvent b).rearm.emit _
  · obtain ⟨htop, hmore⟩ := h.rxInstr_data hidle hi
    have hkept : s.effect (.data b) = (s.rxEvent b).append b := State.frameComplete_of_more b hmore
    rw [hkept]
    exact (h.rxEvent b).append htop hmore
  · exact (h.rxEvent b).emit _

/-- Settles O47: a move keeps the invariant, and so does each operation in the state it runs in. -/
theorem stepKeepsInvariant : Obligations.StepKeepsInvariant := by
  intro s t h hstep
  obtain hmove | ⟨i, u, hruns, hsel, rfl⟩ := step_moves_or_runs hstep
  · exact h.of_moves hmove
  · have hu : u.Inv := h.of_moves hruns.moves
    cases hruns with
    | led d l => exact hu.txStart nofun
    | dig l => exact hu.txStart fun _ _ => rfl
    | byte b rest hready => exact hu.effect_byte hready b hsel
    | tick => exact ((hu.emit _).quietTick).phaseTick
    | call r => exact hu.effect_request r

end Sys2Proof.Machine
end

section
/-! What the operations do to the common fields of a device record, presence and failure counter among them (R220). -/

namespace Sys2Proof.Machine

theorem State.dev_of_records {s t : State} (hftsw : t.ftsw = s.ftsw) (hexp : t.exp = s.exp) (d : Device) :
    t.dev d = s.dev d := by
  cases d
  · exact congrArg FtswRec.base hftsw
  · exact congrArg ExpRec.base hexp

@[simp] theorem State.applyEdge_dev (s : State) (e : Edge) (d : Device) : (s.applyEdge e).dev d = s.dev d := by
  cases e <;> cases d <;> rfl

@[simp] theorem State.btnDecode_dev (s : State) (x : BitVec 16) (d : Device) : (s.btnDecode x).dev d = s.dev d := by
  unfold State.btnDecode; split <;> simp

theorem State.posDecode_dev (s : State) (raw : BitVec 14) (d : Device) : (s.posDecode raw).dev d = s.dev d := by
  have hbase : (ExpRec.calibrate s.exp raw).base = s.exp.base := by
    unfold ExpRec.calibrate
    split <;> rfl
  rw [State.posDecode, State.push_dev]
  cases d
  · rfl
  · exact hbase

/-- Of the complete frames only INIT writes these fields. -/
theorem State.doFrame_dev (s : State) {k : Kind} (hk : k ≠ .init) (d : Device) : (s.doFrame k).dev d = s.dev d := by
  cases k with
  | init => exact absurd rfl hk
  | btn => exact s.btnDecode_dev _ d
  | pos => exact s.posDecode_dev _ d
  | dbtn => simp [State.doFrame, State.doDbtn, State.dbtnDecode]

theorem State.devOnline_dev_other (s : State) {d e : Device} (h : e ≠ d) : (s.devOnline d).dev e = s.dev e := by
  rw [State.devOnline, State.push_dev, State.freshDev_dev_other s d e h]

theorem State.devFail_dev_other (s : State) {d e : Device} (h : e ≠ d) : (s.devFail d).dev e = s.dev e := by
  obtain ⟨-, hf⟩ | ⟨-, hf⟩ := s.devFail_cases d
  · rw [hf, State.setDev_dev_other s d e _ h]
  · rw [hf, State.push_dev, State.zeroDev_dev_other s d e h]

/-- What a push leaves in the queue depends on the queue and its capacity only. -/
theorem State.push_eq_congr {s t : State} (hqueue : t.eq = s.eq) (hcfg : t.cfg = s.cfg) (e : Event) :
    (t.push e).eq = (s.push e).eq := by
  simp only [State.push, hqueue, hcfg]
  split
  · rfl
  · exact hqueue

/-- A success clears the counter of the pedal in flight, keeps it present, and touches no other (R190, R224). -/
theorem State.txOk_dev (s : State) (d : Device) : ((s.txOk).dev d).present = (s.dev d).present ∧
    ((s.txOk).dev d).errCnt = if d = s.tdev then 0 else (s.dev d).errCnt := by
  cases hval : s.tval with
  | led m8 => rw [State.txOk_of_led hval]; cases hdev : s.tdev <;> cases d <;> simp [State.setDev, State.dev]
  | num v =>
    rw [State.txOk_of_num hval rfl]
    cases hdev : s.tdev <;> cases d <;> simp [State.devSuccess, State.setDev, State.dev]

/-- The frame in flight to `d` failed: counted below the threshold, evicted at it (R222, R223). -/
def State.FailedFor (s t : State) (d : Device) : Prop :=
  ∃ e rest, s.input = e :: rest ∧ s.failsOn e ∧ s.tdev = d ∧ (s.dev d).present = true ∧ t.txp = .idle ∧
    ((s.dev d).errCnt + 1 < s.cfg.errThreshold ∧ (t.dev d).present = true ∧
        (t.dev d).errCnt = (s.dev d).errCnt + 1 ∧ t.eq = s.eq ∨
      (s.dev d).errCnt + 1 = s.cfg.errThreshold ∧ (t.dev d).present = false ∧ (t.dev d).errCnt = 0 ∧
        t.eq = (s.push (.deviceOffline d)).eq)

theorem State.failsOn_phase {s : State} {e : Input} (h : s.failsOn e) : s.txp = .echo ∨ s.txp = .ackw := by
  cases e with
  | rx b => exact h.imp And.left And.left
  | tick => exact h.imp And.left And.left
  | noByte => exact h.elim
  | call r => exact h.elim

/-- `TX_FAIL` after the failing event, whatever its cause and whatever else the event wrote. -/
theorem State.Inv.failedFor {s u : State} (h : s.Inv) {e : Input} {rest : List Input} (hin : s.input = e :: rest)
    (hfails : s.failsOn e) (cause : TxCause) (hcfg : u.cfg = s.cfg) (hdev : ∀ d, u.dev d = s.dev d)
    (htdev : u.tdev = s.tdev) (hqueue : u.eq = s.eq) (d : Device) :
    (u.txFail cause).dev d = s.dev d ∨ s.FailedFor (u.txFail cause) d := by
  by_cases hd : s.tdev = d
  · subst hd
    have hcounter := h.devices.counter s.tdev
    have hpresent := h.flight.target (State.failsOn_phase hfails)
    refine .inr ⟨e, rest, hin, hfails, rfl, hpresent, State.txFail_txp u cause, ?_⟩
    obtain ⟨v, hv⟩ : ∃ v, v = { u.raise (.txFailure cause u.tdev) with txp := .idle } := ⟨_, rfl⟩
    have hfail : u.txFail cause = v.devFail s.tdev := by rw [hv, ← htdev]; rfl
    have hvdev : v.dev s.tdev = s.dev s.tdev := by rw [← hdev, hv]; exact State.dev_of_records rfl rfl _
    have hvcfg : v.cfg = s.cfg := by rw [hv]; exact hcfg
    have hvqueue : v.eq = s.eq := by rw [hv]; exact hqueue
    rw [hfail]
    obtain ⟨hbelow, hf⟩ | ⟨hat, hf⟩ := v.devFail_cases s.tdev
    · rw [hvdev, hvcfg] at hbelow
      left
      rw [hf]
      exact ⟨hbelow, by simpa [hvdev] using hpresent, by simp [hvdev], by simpa using hvqueue⟩
    · rw [hvdev, hvcfg] at hat
      right
      rw [hf]
      exact ⟨by omega, by simp [DevBase.zero], by simp [DevBase.zero],
        State.push_eq_congr (by simpa using hvqueue) (by simpa using hvcfg) _⟩
  · left
    rw [State.txFail_eq_devFail, State.devFail_dev_other _ (htdev ▸ Ne.symm hd), ← hdev]
    exact State.dev_of_records rfl rfl d

/-- A byte that fails the frame in flight runs `TX_FAIL` (R183, R187, R188). -/
theorem State.effect_rxInstr_of_fails {s : State} {b : Byte} (h : s.failsOn (.rx b)) :
    ∃ cause, s.effect (s.rxInstr b) = (s.rxEvent b).txFail cause := by
  obtain ⟨hecho, hdiff⟩ | ⟨hackw, hack⟩ := h
  · exact ⟨.echoMismatch, by rw [State.rxInstr_of_echo hecho, if_neg hdiff]; rfl⟩
  · rw [State.rxInstr_of_ackw hackw, if_neg hack]
    split
    · next herror => exact ⟨.errorReply, by rw [herror]; rfl⟩
    · exact ⟨.badReply, rfl⟩

/-- A tick that fails the frame in flight runs `TX_FAIL` (R184, R189). -/
theorem State.phaseTick_of_fails {s : State} (h : s.failsOn .tick) :
    ∃ cause, s.phaseTick = State.txFail { s with tmr := s.tmr + 1 } cause := by
  obtain ⟨hecho, hbound⟩ | ⟨hackw, hbound⟩ := h
  · exact ⟨_, State.phaseTick_of_echo_bound hecho hbound⟩
  · exact ⟨_, State.phaseTick_of_ackw_bound hackw hbound⟩

/-- Any other tick writes no device record. -/
theorem State.phaseTick_dev_of_not_fails {s : State} (h : ¬ s.failsOn .tick) (d : Device) :
    s.phaseTick.dev d = s.dev d := by
  simp only [State.failsOn, not_or, not_and] at h
  obtain ⟨hecho, hackw⟩ := h
  unfold State.phaseTick
  cases hphase : s.txp with
  | idle => rfl
  | rpl =>
    dsimp only
    split <;> exact State.dev_of_records rfl rfl d
  | echo =>
    dsimp only
    rw [if_neg (hecho hphase)]
    exact State.dev_of_records rfl rfl d
  | ackw =>
    dsimp only
    rw [if_neg (hackw hphase)]
    exact State.dev_of_records rfl rfl d

end Sys2Proof.Machine
end

section
/-! What can change a pedal's presence or its counter (R220), by the source of the operation. -/

namespace Sys2Proof.Machine

/-- The last byte of a valid INIT frame that names `d` (R221). -/
def State.CameOnline (s t : State) (d : Device) : Prop :=
  ∃ id payload rest, wellFormed s.cfg .frame (.init id payload) = true ∧
    s.AwaitsLastOf (encode s.cfg (.init id payload)) ∧ s.input = .rx (xorAll (id :: payload)) :: rest ∧
    s.cfg.devOf id = some d ∧ (t.dev d).present = true ∧ (t.dev d).errCnt = 0 ∧
    t.eq = (s.push (.deviceOnline d)).eq

/-- The `ACK` of a frame in flight to `d` (R224). -/
def State.AckedBy (s t : State) (d : Device) : Prop :=
  s.txp = .ackw ∧ s.tdev = d ∧ s.input.head? = some (.rx s.cfg.ack) ∧ (s.dev d).present = true ∧
    t.txp = .idle ∧ (t.dev d).present = true ∧ (t.dev d).errCnt = 0 ∧ t.eq = s.eq

/-- A complete INIT frame brings the pedal it names online and leaves the other one alone. -/
theorem State.doInit_dev (s : State) (d : Device) : s.doInit.dev d = s.dev d ∨
    (s.cfg.devOf s.fb[1] = some d ∧ (s.doInit.dev d).present = true ∧ (s.doInit.dev d).errCnt = 0 ∧
      s.doInit.eq = (s.push (.deviceOnline d)).eq) := by
  cases hdev : s.cfg.devOf s.fb[1] with
  | none =>
    left
    simp only [State.doInit, hdev]
  | some e =>
    rw [State.doInit_of_devOf hdev]
    by_cases he : e = d
    · subst he
      refine .inr ⟨rfl, ?_, ?_, State.push_eq_congr (by simp) (by simp) _⟩ <;> simp [State.devOnline, DevBase.zero]
    · exact .inl (s.devOnline_dev_other (Ne.symm he))

/-- The last byte of a complete frame changes these fields as an INIT frame only. -/
theorem State.presence_lastByte {s : State} (hmode : s.mode = .run) (hidle : s.txp = .idle) {b : Byte}
    {rest : List Input} (hin : s.input = .rx b :: rest) (hlast : s.plen.val + 1 = s.explen.val) {i : Instr}
    (hdec : decode s.cfg .frame (s.partialFrame ++ [b]) = .ok i) (d : Device) :
    (State.effect { s with input := rest } i).dev d = s.dev d ∨
      s.CameOnline (State.effect { s with input := rest } i) d := by
  have hawaits := State.awaitsLastOf_of_last hmode hidle hlast b
  obtain ⟨hwf, hbytes⟩ := encode_of_decodeFrame hdec
  obtain ⟨k, id, pl, rfl⟩ | ⟨k, body, rfl⟩ := decodeFrame_cases hdec
  · have hb := last_of_encode_goodFrame hbytes
    rw [← hbytes] at hawaits
    rw [State.effect_goodFrame, ← hb]
    obtain ⟨u, hu⟩ : ∃ u, u = State.answered { s with input := rest } b s.cfg.ack := ⟨_, rfl⟩
    have hdev : u.dev d = s.dev d := by rw [hu]; exact State.dev_of_records rfl rfl d
    by_cases hk : k = .init
    · subst hk
      have hid : u.fb[1] = id := by
        have hlong := length_encode_goodFrame hwf
        rw [hu]
        refine (hawaits.answered_fb b s.cfg.ack (i := 1) (by omega) ?_).trans ?_
        · simp [encode_goodFrame, withCks]
        · simp [encode_goodFrame, withCks]
      obtain hkept | ⟨hnamed, hpresent, hcount, hqueue⟩ := u.doInit_dev d
      · exact .inl (hu ▸ hkept.trans hdev)
      · refine .inr ⟨id, pl, rest, hwf, hawaits, hb ▸ hin, ?_, hu ▸ hpresent, hu ▸ hcount, ?_⟩
        · rw [hid, hu] at hnamed
          exact hnamed
        · have hpush : (u.push (.deviceOnline d)).eq = (s.push (.deviceOnline d)).eq :=
            State.push_eq_congr (by rw [hu]; rfl) (by rw [hu]; rfl) _
          exact hu ▸ hqueue.trans hpush
    · exact .inl (hu ▸ (u.doFrame_dev hk d).trans hdev)
  · rw [State.effect_badsum]
    exact .inl (State.dev_of_records rfl rfl d)

/-- A byte the framer takes in a sound state changes these fields as the last byte of an INIT frame only. -/
theorem State.Inv.presence_framing {s : State} (h : s.Inv) (hidle : s.txp = .idle) {b : Byte} {rest : List Input}
    (hin : s.input = .rx b :: rest) (d : Device) :
    (State.effect { s with input := rest } (s.rxInstr b)).dev d = s.dev d ∨
      s.CameOnline (State.effect { s with input := rest } (s.rxInstr b)) d := by
  cases htop : top b with
  | true =>
    left
    rw [State.rxInstr_of_top hidle htop, decodeCommand]
    split <;> exact State.dev_of_records rfl rfl d
  | false =>
    by_cases hlt : s.plen.val < s.explen.val
    · by_cases hlast : s.plen.val + 1 = s.explen.val
      · obtain ⟨i, hdec⟩ := h.decodes_last htop hlast
        rw [State.rxInstr_of_decodes hidle htop hlast hdec]
        exact State.presence_lastByte h.mode hidle hin hlast hdec d
      · left
        have hmore : s.plen.val + 1 < s.explen.val := by omega
        rw [State.rxInstr_of_more hidle htop hmore, State.effect,
          State.frameComplete_of_more (s := { s with input := rest }) b hmore]
        exact State.dev_of_records rfl rfl d
    · left
      rw [State.rxInstr_of_stray hidle htop hlt]
      exact State.dev_of_records rfl rfl d

/-- The `ACK` of a frame in flight changes these fields of its own pedal only. -/
theorem State.Inv.presence_ack {s u : State} (h : s.Inv) (hphase : s.txp = .ackw)
    (hhead : s.input.head? = some (.rx s.cfg.ack)) (htdev : u.tdev = s.tdev) (hqueue : u.eq = s.eq) (d : Device)
    (hdev : u.dev d = s.dev d) :
    ((u.txOk.dev d).present = (s.dev d).present ∧ (u.txOk.dev d).errCnt = (s.dev d).errCnt) ∨ s.AckedBy u.txOk d := by
  obtain ⟨hpresent, hcount⟩ := u.txOk_dev d
  rw [hdev] at hpresent hcount
  rw [htdev] at hcount
  by_cases hd : d = s.tdev
  · rw [if_pos hd] at hcount
    have hflight : (s.dev d).present = true := hd ▸ h.flight.target (.inr hphase)
    exact .inr ⟨hphase, hd.symm, hhead, hflight, u.txOk_txp, hpresent.trans hflight, hcount, u.txOk_eq.trans hqueue⟩
  · rw [if_neg hd] at hcount
    exact .inl ⟨hpresent, hcount⟩

/-- Presence and counter of `d` are the same in `t` as in `s`. -/
def State.PresenceKept (s t : State) (d : Device) : Prop :=
  (t.dev d).present = (s.dev d).present ∧ (t.dev d).errCnt = (s.dev d).errCnt

theorem State.presenceKept_of_dev {s t : State} {d : Device} (h : t.dev d = s.dev d) : s.PresenceKept t d :=
  ⟨congrArg DevBase.present h, congrArg DevBase.errCnt h⟩

theorem State.presenceKept_of_records {s t : State} (d : Device) (hftsw : t.ftsw = s.ftsw) (hexp : t.exp = s.exp) :
    s.PresenceKept t d :=
  State.presenceKept_of_dev (State.dev_of_records hftsw hexp d)

/-- A received byte in a sound state, in each phase: a failing byte, the `ACK`, or the last byte of an INIT frame. -/
theorem State.Inv.presence_byte {s t : State} (h : s.Inv) {b : Byte} {rest : List Input}
    (hin : s.input = .rx b :: rest) (ht : t = State.effect { s with input := rest } (s.rxInstr b)) (d : Device) :
    s.PresenceKept t d ∨ s.CameOnline t d ∨ s.AckedBy t d ∨ s.FailedFor t d := by
  by_cases hfails : s.failsOn (.rx b)
  · obtain ⟨cause, hcause⟩ := State.effect_rxInstr_of_fails (s := { s with input := rest }) hfails
    have hfail : t = (State.rxEvent { s with input := rest } b).txFail cause := ht.trans hcause
    obtain hkept | hfailed := h.failedFor (u := State.rxEvent { s with input := rest } b) hin hfails cause rfl
      (fun e => State.dev_of_records rfl rfl e) rfl rfl d
    · exact .inl (State.presenceKept_of_dev (hfail ▸ hkept))
    · exact .inr (.inr (.inr (hfail ▸ hfailed)))
  · simp only [State.failsOn, not_or, not_and, not_not] at hfails
    obtain ⟨hecho, hackw⟩ := hfails
    cases hphase : s.txp with
    | idle => exact ht ▸ (h.presence_framing hphase hin d).imp State.presenceKept_of_dev .inl
    | rpl =>
      rw [State.rxInstr_of_rpl hphase] at ht
      exact .inl (ht ▸ State.presenceKept_of_records d rfl rfl)
    | echo =>
      rw [State.rxInstr_of_echo hphase, if_pos (hecho hphase)] at ht
      left
      rw [ht]
      split <;> exact State.presenceKept_of_records d rfl rfl
    | ackw =>
      have hack := hackw hphase
      rw [State.rxInstr_of_ackw hphase, if_pos hack] at ht
      obtain hkept | hacked := h.presence_ack (u := State.rxEvent { s with input := rest } s.cfg.ack) hphase
        (by rw [hin, hack]; rfl) rfl rfl d (State.dev_of_records rfl rfl d)
      · exact .inl (ht ▸ hkept)
      · exact .inr (.inr (.inl (ht ▸ hacked)))

/-- A tick in a sound state: only one that ends a frame in flight changes these fields. -/
theorem State.Inv.presence_tick {s t : State} (h : s.Inv) {rest : List Input} (hin : s.input = .tick :: rest)
    (ht : t = State.effect { s with input := rest } .tick) (d : Device) : s.PresenceKept t d ∨ s.FailedFor t d := by
  obtain ⟨u, hu⟩ : ∃ u, u = (State.emit { s with input := rest } .tick).quietTick := ⟨_, rfl⟩
  have hphaseTick : t = u.phaseTick := hu ▸ ht
  have hdev : ∀ e, u.dev e = s.dev e := fun e => hu ▸ State.dev_of_records rfl rfl e
  have hfailsOn : u.failsOn .tick ↔ s.failsOn .tick := by rw [hu]; exact Iff.rfl
  by_cases hfails : s.failsOn .tick
  · obtain ⟨cause, hcause⟩ := State.phaseTick_of_fails (hfailsOn.mpr hfails)
    rw [hphaseTick, hcause]
    obtain hkept | hfailed := h.failedFor (u := { u with tmr := u.tmr + 1 }) hin hfails cause (by rw [hu]; rfl)
      (fun e => (State.dev_of_records rfl rfl e).trans (hdev e)) (by rw [hu]; rfl) (by rw [hu]; rfl) d
    · exact .inl (State.presenceKept_of_dev hkept)
    · exact .inr hfailed
  · have hkept := State.phaseTick_dev_of_not_fails (fun hf => hfails (hfailsOn.mp hf)) d
    exact .inl (State.presenceKept_of_dev (hphaseTick ▸ hkept.trans (hdev d)))

/-- Of the caller's requests only a reset writes a device record. -/
theorem State.effect_request_records (s : State) {r : Request} (h : r ≠ .reset) :
    (s.effect r.instr).ftsw = s.ftsw ∧ (s.effect r.instr).exp = s.exp := by
  cases r with
  | reset => exact absurd rfl h
  | _ => simp [State.effect, Request.instr]

/-- Settles O48: the four transitions of the presence machine, by the source of the operation that makes each. -/
theorem presenceChangesOnlyByItsTransitions : Obligations.PresenceChangesOnlyByItsTransitions := by
  intro s t d h hstep
  obtain ⟨⟨_, _, _, _, _, rfl⟩, -, -, -⟩ | ⟨i, u, hruns, -, rfl⟩ := step_moves_or_runs hstep
  · exact .inl (State.presenceKept_of_records d rfl rfl)
  · cases hruns with
    | led e l => exact .inl (State.presenceKept_of_records d (State.txStart_ftsw ..) (State.txStart_exp ..))
    | dig l => exact .inl (State.presenceKept_of_records d (State.txStart_ftsw ..) (State.txStart_exp ..))
    | byte b rest _ hin => exact (h.presence_byte hin rfl d).imp_right (.imp_right (.imp_right .inl))
    | tick rest hin => exact (h.presence_tick hin rfl d).imp_right fun hfailed => .inr (.inr (.inl hfailed))
    | call r rest hin =>
      by_cases hr : r = .reset
      · subst hr
        exact .inr (.inr (.inr (.inr ⟨by rw [hin]; rfl, by cases d <;> rfl, by cases d <;> rfl, rfl⟩)))
      · obtain ⟨hftsw, hexp⟩ := State.effect_request_records { s with input := rest } hr
        exact .inl (State.presenceKept_of_records d hftsw hexp)

end Sys2Proof.Machine
end
